-- ==== Sys2Proof/Word.lean ====
section
/-! DEFINITION. The word types of the block: every quantity is an unsigned bit vector or a natural number (R5). -/

namespace Sys2Proof

/-- An input byte, which is one instruction word of format BYTE (R80, R81). -/
abbrev Byte := BitVec 8

/-- A host command word, format CMD (R80, R83). -/
abbrev CmdWord := BitVec 5

/-- A 4-bit state code, as `S`, `INIT`, `RESULT` and the dense entries hold it (R21, R85). -/
abbrev Code := BitVec 4

/-- A packed row, and the carried offset `OFF` (R23, R86, R87). -/
abbrev Row := BitVec 64

/-- `zext_64` of R5 on a state code. -/
def zext64 (c : Code) : Row := c.setWidth 64

/-- The 256 byte values in ascending order (the loop `for b in 0..255` of R150). -/
def allBytes : List Byte := (List.range 256).map (BitVec.ofNat 8)

end Sys2Proof
end

