-- ==== Sys2Proof/Machine/Grammar.lean ====
section
/-! DEFINITION. The Grammar Rules: the nine states, their codes, the transition function, its extension to byte
sequences, and the twelve byte classes (R20, R21, R110 to R147). This is level (i) of R9. -/

namespace Sys2Proof.Machine

/-- The closed set of nine automaton states (R20). -/
inductive DState where
  | fail
  | ok
  | tail1
  | tail2
  | tail3
  | lead3Low
  | lead3High
  | lead4Low
  | lead4High
deriving DecidableEq, Repr

/-- `code(X)` (R21). -/
def code : DState → Code
  | .fail => 0
  | .ok => 1
  | .tail1 => 2
  | .tail2 => 3
  | .tail3 => 4
  | .lead3Low => 5
  | .lead3High => 6
  | .lead4Low => 7
  | .lead4High => 8

/-- `state(c)`, defined for 0..8 only (R21). -/
def stateOf (c : Code) : Option DState :=
  match c.toNat with
  | 0 => some .fail
  | 1 => some .ok
  | 2 => some .tail1
  | 3 => some .tail2
  | 4 => some .tail3
  | 5 => some .lead3Low
  | 6 => some .lead3High
  | 7 => some .lead4Low
  | 8 => some .lead4High
  | _ => none

/-- The nine states in code order (the loop `for s in 0..8` of R150). -/
def allStates : List DState :=
  [.fail, .ok, .tail1, .tail2, .tail3, .lead3Low, .lead3High, .lead4Low, .lead4High]

/-- `lo <= b <= hi` (R5: byte ranges are inclusive at both ends). -/
def inRange (lo hi : Nat) (b : Byte) : Bool := decide (lo ≤ b.toNat) && decide (b.toNat ≤ hi)

/-- The transition function (R110). -/
def delta (X : DState) (b : Byte) : DState :=
  match X with
  | .ok =>
    if inRange 0x00 0x7F b then .ok
    else if inRange 0xC2 0xDF b then .tail1
    else if inRange 0xE0 0xE0 b then .lead3Low
    else if inRange 0xE1 0xEC b then .tail2
    else if inRange 0xED 0xED b then .lead3High
    else if inRange 0xEE 0xEF b then .tail2
    else if inRange 0xF0 0xF0 b then .lead4Low
    else if inRange 0xF1 0xF3 b then .tail3
    else if inRange 0xF4 0xF4 b then .lead4High
    else .fail
  | .tail1 => if inRange 0x80 0xBF b then .ok else .fail
  | .tail2 => if inRange 0x80 0xBF b then .tail1 else .fail
  | .tail3 => if inRange 0x80 0xBF b then .tail2 else .fail
  | .lead3Low => if inRange 0xA0 0xBF b then .tail1 else .fail
  | .lead3High => if inRange 0x80 0x9F b then .tail1 else .fail
  | .lead4Low => if inRange 0x90 0xBF b then .tail2 else .fail
  | .lead4High => if inRange 0x80 0x8F b then .tail2 else .fail
  | .fail => .fail

/-- The extension to byte sequences, a left fold (R131). -/
def deltaStar (X : DState) (bytes : List Byte) : DState := bytes.foldl delta X

/-- The seventeen rows of the source's table, as (from, first byte, last byte, to) (R111 to R127). -/
def grammarRows : List (DState × Nat × Nat × DState) :=
  [ (.ok, 0x00, 0x7F, .ok),
    (.ok, 0xC2, 0xDF, .tail1),
    (.ok, 0xE0, 0xE0, .lead3Low),
    (.ok, 0xE1, 0xEC, .tail2),
    (.ok, 0xED, 0xED, .lead3High),
    (.ok, 0xEE, 0xEF, .tail2),
    (.ok, 0xF0, 0xF0, .lead4Low),
    (.ok, 0xF1, 0xF3, .tail3),
    (.ok, 0xF4, 0xF4, .lead4High),
    (.lead3Low, 0xA0, 0xBF, .tail1),
    (.lead3High, 0x80, 0x9F, .tail1),
    (.lead4Low, 0x90, 0xBF, .tail2),
    (.lead4High, 0x80, 0x8F, .tail2),
    (.tail1, 0x80, 0xBF, .ok),
    (.tail2, 0x80, 0xBF, .tail1),
    (.tail3, 0x80, 0xBF, .tail2),
    (.fail, 0x00, 0xFF, .fail) ]

/-- The twelve byte classes (R82, D25). -/
inductive ByteClass where
  | ascii
  | cont80
  | cont90
  | contA0
  | illegal
  | lead2
  | lead3Low
  | lead3
  | lead3High
  | lead4Low
  | lead4
  | lead4High
deriving DecidableEq, Repr

/-- The class of a byte, by the ranges of R82. -/
def classOf (b : Byte) : ByteClass :=
  if inRange 0x00 0x7F b then .ascii
  else if inRange 0x80 0x8F b then .cont80
  else if inRange 0x90 0x9F b then .cont90
  else if inRange 0xA0 0xBF b then .contA0
  else if inRange 0xC2 0xDF b then .lead2
  else if inRange 0xE0 0xE0 b then .lead3Low
  else if inRange 0xED 0xED b then .lead3High
  else if inRange 0xE1 0xEF b then .lead3
  else if inRange 0xF0 0xF0 b then .lead4Low
  else if inRange 0xF1 0xF3 b then .lead4
  else if inRange 0xF4 0xF4 b then .lead4High
  else .illegal

/-- The column of a class: the next state for each current state (R133 to R144). -/
def column : ByteClass → DState → DState
  | .ascii, .ok => .ok
  | .cont80, .tail1 => .ok
  | .cont80, .tail2 => .tail1
  | .cont80, .tail3 => .tail2
  | .cont80, .lead3High => .tail1
  | .cont80, .lead4High => .tail2
  | .cont90, .tail1 => .ok
  | .cont90, .tail2 => .tail1
  | .cont90, .tail3 => .tail2
  | .cont90, .lead3High => .tail1
  | .cont90, .lead4Low => .tail2
  | .contA0, .tail1 => .ok
  | .contA0, .tail2 => .tail1
  | .contA0, .tail3 => .tail2
  | .contA0, .lead3Low => .tail1
  | .contA0, .lead4Low => .tail2
  | .lead2, .ok => .tail1
  | .lead3Low, .ok => .lead3Low
  | .lead3, .ok => .tail2
  | .lead3High, .ok => .lead3High
  | .lead4Low, .ok => .lead4Low
  | .lead4, .ok => .tail3
  | .lead4High, .ok => .lead4High
  | _, _ => .fail

/-- The three outcomes of a run (R204). -/
inductive Verdict where
  | valid
  | invalid
  | incomplete
deriving DecidableEq, Repr

/-- How the final state of a run is read (R204). -/
def verdict : DState → Verdict
  | .ok => .valid
  | .fail => .invalid
  | .tail1 | .tail2 | .tail3 | .lead3Low | .lead3High | .lead4Low | .lead4High => .incomplete

/-- How many bytes are owed at least after a run that ends in a state (R20, R211). -/
def bytesOwed : DState → Nat
  | .tail1 => 1
  | .tail2 | .lead3Low | .lead3High => 2
  | .tail3 | .lead4Low | .lead4High => 3
  | .ok | .fail => 0

end Sys2Proof.Machine
end

