-- ==== Sys2Proof/Config.lean ====
section
/-! DEFINITION. The implementation parameters that the spec leaves OPEN and the model takes as arguments (R4). -/

namespace Sys2Proof

/-- The OPEN parameters of R4 on which a rule depends. `NINST` is the number of `Inst` records a state holds
(R233), `CR_MAP` and `CYCLES_PER_BYTE` are used by no rule (D6, D20). Fixed for a machine: no step changes them. -/
structure Params where
  /-- `AUTO_BUILD`: whether RESET leaves the tables built (D12). -/
  autoBuild : Bool
  /-- `IDXW`: the width of `LEN` and `IDX`; `none` is the unbounded natural number (D13). -/
  idxWidth : Option Nat
deriving DecidableEq, Repr

/-- The defaults R4 names: `AUTO_BUILD` false, `IDXW` unbounded. -/
def Config.defaults : Params where
  autoBuild := false
  idxWidth := none

/-- Whether a length is representable in `IDXW` bits (R25: every value `0 <= LEN < 2^IDXW` is legal). -/
def Config.lenFits (p : Params) (n : Nat) : Bool :=
  match p.idxWidth with
  | none => true
  | some w => decide (n < 2 ^ w)

end Sys2Proof
end

