-- ==== Sys2Proof/Machine/State.lean ====
section
/-! DEFINITION. The state of the block: the shared transition tables and `TBL_READY`, the registers of each validator
instance (R20 to R38, R233), the host's buffer and moves (R7, R31), and the two reason types. -/

namespace Sys2Proof.Machine

/-- A byte-addressed space as (address, byte) pairs, addresses strictly rising; an unlisted address holds no byte.
It is used for the input space `IN` (R50, R51). -/
abbrev Memory := List Host.Cell

/-- The five VALIDATE variants (R83: `VAR`, in the order of the source's list). -/
inductive Variant where
  | ds
  | db
  | p4
  | p6
  | p6u
deriving DecidableEq, Repr

/-- `STATUS.ERR`, the recorded fault (R28, R221). -/
inductive ErrCode where
  /-- Code 0: no fault recorded. -/
  | none
  /-- Code 1: a VALIDATE while the tables were not built (R222). -/
  | tablesNotBuilt
  /-- Code 2: a VALIDATE with `INIT` in 9..15 (R223). -/
  | illegalInitialState
  /-- Code 3: a reserved command word (R224). -/
  | illegalCommand
deriving DecidableEq, Repr

/-- The control registers CR0 to CR4 by name (R25 to R29; the numbers are identifiers, D6). -/
inductive CReg where
  /-- CR0, write-only (R27). -/
  | cmd
  /-- CR1, read-write, 4 bits (R26). -/
  | init
  /-- CR2, read-write, `IDXW` bits (R25). -/
  | len
  /-- CR3, read-only, 6 bits (R28). -/
  | status
  /-- CR4, read-only, 4 bits (R29). -/
  | result
deriving DecidableEq, Repr

/-- One move of an instance's host (R7, R210). A host makes its moves one at a time, in order (R208). -/
inductive HostMove where
  /-- Assert the reset input (R250). -/
  | reset
  /-- Write a command word to CR0 (R27): it is the instruction that step fetches. -/
  | writeCmd (w : CmdWord)
  /-- Write a state code to CR1 (R26). -/
  | writeInit (c : Code)
  /-- Write a length to CR2 (R25). -/
  | writeLen (n : Nat)
  /-- Write a number to CR3, which is read-only (R28, U16). -/
  | writeStatus (v : BitVec 6)
  /-- Write a number to CR4, which is read-only (R29, U16). -/
  | writeResult (v : Code)
  /-- Supply the whole input buffer, `IN[0]` first (R51, R92). -/
  | supply (bytes : List Byte)
  /-- Put one byte of the buffer (R51: how the bytes reach the block is the host's matter). -/
  | putByte (i : Nat) (b : Byte)
  /-- Read a control register (R25 to R29). -/
  | read (r : CReg)
  /-- `INIT <- RESULT`: read CR4 and write what was read to CR1 (R93, R205). -/
  | carryResult
deriving DecidableEq, Repr

/-- The run in progress: what the VALIDATE prologue fixed (R202, R209). -/
structure Run where
  /-- The variant, an operand of the command (R34: no mode register). -/
  variant : Variant
  /-- The snapshot of `IN[0..LEN-1]`; its length is the snapshot of `LEN` (R62, R202). -/
  slice : List Byte
deriving DecidableEq, Repr

/-- What one validator instance has of its own (R233), with its host's buffer and moves. -/
structure Inst where
  /-- The instance's number (R233: 0..`NINST`-1). -/
  id : Nat
  /-- `INIT`, CR1 (R26). -/
  init : Code
  /-- Whether the host has written `INIT` since RESET (R251). No meaning depends on it: it tells a claim which runs use the
  number of log entry 1, for which the spec has no value (R38, U10; log entry 5). -/
  initSet : Bool
  /-- `LEN`, CR2 (R25). -/
  len : Nat
  /-- Whether the host has written `LEN` since RESET (R251); as `initSet`. -/
  lenSet : Bool
  /-- `S`, the state register (R22). -/
  s : Code
  /-- `OFF`, the pre-multiplied offset register (R23). -/
  off : Row
  /-- `IDX`, the byte index: the program counter of the byte stream (R24). -/
  idx : Nat
  /-- `STATUS.DONE` (R28). -/
  done : Bool
  /-- `STATUS.ERR` (R28). -/
  err : ErrCode
  /-- `RESULT`, CR4; it has a value only while `DONE = 1` (R29). -/
  result : Code
  /-- The run in progress, if there is one (R209; log entry 2). -/
  run : Option Run
  /-- `IN`, the host's input buffer (R31, R51). -/
  input : Memory
  /-- The moves the instance's host is still to make, first first (the outside world: R7, R210; log entry 3). -/
  moves : List HostMove
  /-- What the host's last register read returned (the outside world; log entry 3). -/
  readOut : Option (CReg × Nat)
deriving DecidableEq, Repr

/-- The four physical tables (R30, R50). An entry that a list does not reach holds no value (log entry 14). -/
structure Tables where
  /-- `DENSE_SB`, indexed `[state][byte]` (R151). -/
  denseSb : List (List Code)
  /-- `DENSE_BS`, indexed `[byte][state]` (R152). -/
  denseBs : List (List Code)
  /-- `ROW4`, indexed `[byte]` (R153). -/
  row4 : List Row
  /-- `ROW6P`, indexed `[byte]` (R154). -/
  row6p : List Row
deriving DecidableEq, Repr

/-- Tables in which no entry holds a value (R38: after RESET with `AUTO_BUILD = 0`). -/
def Tables.empty : Tables where
  denseSb := []
  denseBs := []
  row4 := []
  row6p := []

/-- The state of the block. `inst` is the instance that acts; `parked` are the others, so `NINST` is their number plus
one (R233). -/
structure State where
  /-- The OPEN parameters, constant (R4; log entry 10). -/
  params : Params
  /-- The four tables, one copy for all instances (R30, R233). -/
  tables : Tables
  /-- `STATUS.TBL_READY`, one copy for all instances (R28, R233). -/
  tblReady : Bool
  /-- The instance that acts. -/
  inst : Inst
  /-- The other instances. -/
  parked : List Inst
  /-- Which instance acts at each of the next steps; when it is empty the acting instance stays (log entry 4). -/
  turns : List Nat
deriving DecidableEq, Repr

/-- Why the machine stops with a fault. These are the model's own stops, not the faults of `STATUS.ERR`, which are next
states (R226). -/
inductive Fault where
  /-- Raised by a byte step whose table entry holds no value: an entry of unbuilt tables, or of a state code 9..15. Safe; no
  state that meets `Safety.Inv` raises it (R56, U6, U11). -/
  | tableEntryAbsent
  /-- Raised by a VALIDATE prologue whose slice holds an index at which the host has supplied no byte, and never by a byte
  step of a state that meets `Safety.Inv`. Safe (R210: the host must supply a buffer of `LEN` bytes; log entry 6). -/
  | inputByteAbsent
deriving DecidableEq, Repr

/-- Why the machine has no transition. -/
inductive Refusal where
  /-- Raised by `exec` for an instruction that has no meaning yet. Safe. -/
  | notModelled (mnemonic : String)
  /-- Raised by a byte word executed while no run is in progress, which step never does. Safe (R209, log entry 9). -/
  | noRunInProgress
  /-- Raised by fetching a word that no row holds, which no word of either format is. Safe (R80). -/
  | undecodable
  /-- Raised by a read of `RESULT` while `DONE = 0`. Safe (R29, U9). -/
  | resultHasNoValue
  /-- Raised by a host read of `CMD`. Safe (R27, U15). -/
  | cmdIsWriteOnly
  /-- Raised by a host write of `STATUS` or `RESULT`. Safe (R28, R29, U16). -/
  | registerIsReadOnly (r : CReg)
  /-- Raised by a host write of a length that `IDXW` bits cannot hold. Safe (R25, U18). -/
  | lenNotRepresentable
  /-- Raised by RESET while another instance's command is in progress. Safe (R250, U23). -/
  | resetDuringCommand
  /-- Raised by a turn given to an instance number that does not exist. Safe (R233). -/
  | noSuchInstance (id : Nat)
deriving DecidableEq, Repr

/-- The registers of an instance right after RESET (R38). The spec gives `INIT`, `LEN`, `S`, `OFF`, `IDX` and `RESULT` no
value there; that each holds 0 is DESIGN CHOICE (log entry 1), and a read of `INIT` or `LEN` gives it (log entry 5). -/
def Inst.initial (id : Nat) : Inst where
  id := id
  init := 0
  initSet := false
  len := 0
  lenSet := false
  s := 0
  off := 0
  idx := 0
  done := false
  err := .none
  result := 0
  run := none
  input := []
  moves := []
  readOut := none

/-- The block right after reset with the default parameters of R4: no table built, no fault, one idle instance (R38, R250),
and a host that has supplied nothing and has no move left. -/
def State.reset : State where
  params := Config.defaults
  tables := Tables.empty
  tblReady := false
  inst := Inst.initial 0
  parked := []
  turns := []

end Sys2Proof.Machine
end

