-- ==== Sys2Proof/Machine/Tables.lean ====
section
/-! DEFINITION. What the Table Builder writes: the four tables, materialised from the transition function (R86 to R89,
R150 to R158), the reference rows `ROW6N` (R88), and the reads of one table entry (R50, R55). -/

namespace Sys2Proof.Machine

/-- OR the field of one current state into a row: `acc | (v << (w * s))` (R150). -/
def packField (w : Nat) (field : DState → Row) (acc : Row) (X : DState) : Row :=
  acc ||| (field X <<< (w * (code X).toNat))

/-- A packed row with field width `w`, built from zero over the nine current states (R150). -/
def packRow (w : Nat) (field : DState → Row) : Row := allStates.foldl (packField w field) 0

/-- `code(delta(state(s), b))`, the entry of both dense tables (R89, R151, R152). -/
def denseEntry (X : DState) (b : Byte) : Code := code (delta X b)

/-- `ROW4[b]` (R86, R153). -/
def buildRow4 (b : Byte) : Row := packRow 4 fun X => zext64 (denseEntry X b)

/-- `ROW6P[b]`: each field is 6 times the next state's code (R87, R154). -/
def buildRow6p (b : Byte) : Row := packRow 6 fun X => 6 * zext64 (denseEntry X b)

/-- `ROW6N[b]`, a reference value that no table holds (R88). -/
def buildRow6n (b : Byte) : Row := packRow 6 fun X => zext64 (denseEntry X b)

/-- The four tables after BUILD (R151 to R154). -/
def Tables.built : Tables where
  denseSb := allStates.map fun X => allBytes.map fun b => denseEntry X b
  denseBs := allBytes.map fun b => allStates.map fun X => denseEntry X b
  row4 := allBytes.map buildRow4
  row6p := allBytes.map buildRow6p

/-- The tables and `TBL_READY` after RESET, by `AUTO_BUILD` (R38, R250). -/
def Tables.afterReset (autoBuild : Bool) : Tables := if autoBuild then Tables.built else Tables.empty

/-- `MemRead(DENSE_SB:(s, b), 4b)`; `none` where the entry holds no value (R6, R50). -/
def Tables.readSb (t : Tables) (s : Code) (b : Byte) : Option Code :=
  t.denseSb[s.toNat]?.bind fun row => row[b.toNat]?

/-- `MemRead(DENSE_BS:(b, s), 4b)` (R6, R50). -/
def Tables.readBs (t : Tables) (b : Byte) (s : Code) : Option Code :=
  t.denseBs[b.toNat]?.bind fun row => row[s.toNat]?

/-- `MemRead(ROW4:b, 64b)`: a row is read whole (R50, R52). -/
def Tables.readRow4 (t : Tables) (b : Byte) : Option Row := t.row4[b.toNat]?

/-- `MemRead(ROW6P:b, 64b)` (R50, R52). -/
def Tables.readRow6p (t : Tables) (b : Byte) : Option Row := t.row6p[b.toNat]?

end Sys2Proof.Machine
end

