-- ==== Sys2Proof/Machine/Operands.lean ====
section
/-! DEFINITION. The operand forms: the carried state in its raw and its pre-multiplied form, the extraction of the next
state from a table entry, the input slice, and the loop bound (R94, R180, R182, R184, R202, R203). -/

namespace Sys2Proof.Machine

/-- Whether a variant carries the raw state in `S`; the other two carry the offset in `OFF` (R22, R23). -/
def Variant.rawState : Variant → Bool
  | .ds | .db | .p4 => true
  | .p6 | .p6u => false

/-- `field_mask` of R180: `2^W - 1`. -/
def fieldMask (w : Nat) : Row := BitVec.ofNat 64 (2 ^ w - 1)

/-- The plain step with field width `w`: `(row >> (cur * w)) & (2^w - 1)` (R180). -/
def plainStep (w : Nat) (row : Row) (cur : Code) : Row := (row >>> (cur.toNat * w)) &&& fieldMask w

/-- The plain step of VALIDATE.P4, a state code: `(row >> (S * 4))[3:0]` (R181). -/
def plainStep4 (row : Row) (cur : Code) : Code := (plainStep 4 row cur).setWidth 4

/-- The shift amount of the pre-multiplied step: `OFF & 63` (R182, R192). -/
def shiftAmount (off : Row) : Row := off &&& 63

/-- The pre-multiplied step: `row >> (off & 63)`, a 64-bit logical shift with no field mask (R182). -/
def premulStep (row : Row) (off : Row) : Row := row >>> (shiftAmount off).toNat

/-- The pre-multiplied offset of an initial state: `zext_64(6 * INIT)` (R202). -/
def premulLoad (c : Code) : Row := 6 * zext64 c

/-- The final decode of the offset: `(OFF & 63) / 6` (R203). -/
def premulDecode (off : Row) : Code := (shiftAmount off / 6).setWidth 4

/-- Whether the loop test before a byte lets the byte be consumed (R209). The unrolled variant tests `LEN - IDX >= 8` at
each multiple of 8, tests nothing inside a group it has entered, and tests `IDX < LEN` in the tail (R184); where in a
group it stands is a function of `IDX` and `LEN` (R34). -/
def bytesRemain (v : Variant) (idx len : Nat) : Bool :=
  match v with
  | .ds | .db | .p4 | .p6 => decide (idx < len)
  | .p6u =>
    if idx % 8 ≠ 0 ∧ idx / 8 * 8 + 8 ≤ len then true
    else if len - idx ≥ 8 then true
    else decide (idx < len)

end Sys2Proof.Machine
end

