-- ==== Sys2Proof/Machine/Flags.lean ====
section
/-! DEFINITION. The `STATUS` register: its stored fields, its two combinational fields and its 6-bit word (R28). The block
has no condition flag (R32). -/

namespace Sys2Proof.Machine

/-- The 2-bit code of `STATUS.ERR` (R221). -/
def ErrCode.bits : ErrCode → BitVec 2
  | .none => 0
  | .tablesNotBuilt => 1
  | .illegalInitialState => 2
  | .illegalCommand => 3

/-- `STATUS.VALID`: `DONE = 1` and `RESULT = code(Ok)` (R28). -/
def Inst.valid (i : Inst) : Bool := i.done && i.result == code .ok

/-- `STATUS.FAILED`: `DONE = 1` and `RESULT = code(Fail)` (R28). -/
def Inst.failed (i : Inst) : Bool := i.done && i.result == code .fail

/-- The 6-bit word of `STATUS`: `FAILED[5] VALID[4] ERR[3:2] DONE[1] TBL_READY[0]` (R28). -/
def statusWord (s : State) : BitVec 6 :=
  BitVec.ofBool s.inst.failed ++ BitVec.ofBool s.inst.valid ++ s.inst.err.bits ++ BitVec.ofBool s.inst.done ++
    BitVec.ofBool s.tblReady

end Sys2Proof.Machine
end

