-- ==== Sys2Proof/Machine/Ops.lean ====
section
/-! DEFINITION. The named operations over memory, registers and the shared tables: the input space, the byte step's two
register updates, fault entry, RESET, the prologue and the epilogue of every VALIDATE, and the choice of the acting
instance. -/

namespace Sys2Proof.Machine

/-- What `exec` and `step` answer. -/
abbrev Answer := Host.Outcome State Fault Refusal

/-! ### The input space `IN` (R51) -/

/-- The byte at an index, if the host has supplied one. -/
def Memory.read : Memory → Nat → Option Byte
  | [], _ => none
  | (a, b) :: m, i => if a = i then some b else Memory.read m i

/-- Put a byte at an index, keeping the addresses strictly rising. -/
def Memory.write : Memory → Nat → Byte → Memory
  | [], i, v => [(i, v)]
  | (a, b) :: m, i, v =>
    if i < a then (i, v) :: (a, b) :: m
    else if i = a then (i, v) :: m
    else (a, b) :: Memory.write m i v

/-- Whether every address of the space is at least `lo` and the addresses rise strictly. -/
def Memory.risesFrom : Nat → Memory → Bool
  | _, [] => true
  | lo, (a, _) :: m => decide (lo ≤ a) && Memory.risesFrom (a + 1) m

/-- The canonical form: addresses strictly rising. An unlisted index holds no byte, so no entry can equal it. -/
def Memory.wf (m : Memory) : Bool := Memory.risesFrom 0 m

/-- The space that holds the bytes of a buffer at consecutive indices from `i` (R51). -/
def Memory.ofBytesAt (i : Nat) : List Byte → Memory
  | [] => []
  | b :: bs => (i, b) :: Memory.ofBytesAt (i + 1) bs

/-- The `n` bytes from index `i` in ascending order (R53), or `none` if one of them was never supplied. -/
def Memory.sliceAt (m : Memory) (i : Nat) : Nat → Option (List Byte)
  | 0 => some []
  | n + 1 =>
    match m.read i, m.sliceAt (i + 1) n with
    | some b, some bs => some (b :: bs)
    | _, _ => none

/-- The snapshot of `IN[0..LEN-1]` (R202). -/
def snapshot (i : Inst) : Option (List Byte) := i.input.sliceAt 0 i.len

/-! ### The byte step's register updates -/

/-- `S <- n` and `IDX <- IDX + 1` (R24, R170, R171, R181). -/
def State.stepS (st : State) (n : Code) : State :=
  { st with inst := { st.inst with s := n, idx := st.inst.idx + 1 } }

/-- `OFF <- o` and `IDX <- IDX + 1` (R24, R183, R184). -/
def State.stepOff (st : State) (o : Row) : State :=
  { st with inst := { st.inst with off := o, idx := st.inst.idx + 1 } }

/-- A byte step that carries the raw state: `S` takes the entry read, if it holds a value. -/
def carryS (st : State) : Option Code → Answer
  | some n => .next (st.stepS n)
  | none => .fault .tableEntryAbsent

/-- A byte step that carries the offset: `OFF` takes the shifted row, if the row holds a value. -/
def carryOff (st : State) : Option Row → Answer
  | some o => .next (st.stepOff o)
  | none => .fault .tableEntryAbsent

/-- One byte step of the run in progress on the byte `b`: exactly one table read, by variant (R55, R170, R171, R181,
R183, R184). -/
def byteStep (b : Byte) (st : State) : Answer :=
  match st.inst.run with
  | none => .refused .noRunInProgress
  | some r =>
    match r.variant with
    | .ds => carryS st (st.tables.readSb st.inst.s b)
    | .db => carryS st (st.tables.readBs b st.inst.s)
    | .p4 => carryS st ((st.tables.readRow4 b).map fun row => plainStep4 row st.inst.s)
    | .p6 => carryOff st ((st.tables.readRow6p b).map fun row => premulStep row st.inst.off)
    | .p6u => carryOff st ((st.tables.readRow6p b).map fun row => premulStep row st.inst.off)

/-! ### Faults (R221 to R227) -/

/-- `raise F`: record the code in `STATUS.ERR`, clear `STATUS.DONE`, change nothing else (R226). -/
def State.raise (st : State) (e : ErrCode) : State :=
  { st with inst := { st.inst with err := e, done := false } }

/-- A command: ignored while a fault is recorded (R227), else as given. The recorded fault has no return but RESET. -/
def command (body : State → Answer) (st : State) : Answer :=
  match st.inst.err with
  | .none => body st
  | .tablesNotBuilt | .illegalInitialState | .illegalCommand => .next st

/-! ### BUILD (R150, R155) -/

/-- The tables hold their built values and `TBL_READY` reads 1 (R150; R59: all writes before the flag; log entry 13). -/
def State.installTables (st : State) : State := { st with tables := Tables.built, tblReady := true }

/-! ### The prologue and the epilogue of a VALIDATE (R202, R203) -/

/-- The state after a prologue that raised nothing: `DONE <- 0`, `IDX <- 0`, the carried register loaded from `INIT`, and
the run in progress with its snapshot (R202). -/
def State.beginRun (st : State) (v : Variant) (slice : List Byte) : State :=
  if v.rawState then
    { st with inst :=
      { st.inst with done := false, idx := 0, s := st.inst.init, run := some ⟨v, slice⟩ } }
  else
    { st with inst :=
      { st.inst with done := false, idx := 0, off := premulLoad st.inst.init, run := some ⟨v, slice⟩ } }

/-- The prologue's checks and loads, in the order of R202 and R225 (log entries 5, 6 and 8). -/
def prologue (v : Variant) (st : State) : Answer :=
  if st.tblReady = false then .next (st.raise .tablesNotBuilt)
  else if st.inst.init.toNat > 8 then .next (st.raise .illegalInitialState)
  else
    match snapshot st.inst with
    | none => .fault .inputByteAbsent
    | some slice => .next (st.beginRun v slice)

/-- The final state code of a run, from the register its variant carries (R203). -/
def finalCode (v : Variant) (i : Inst) : Code := if v.rawState then i.s else premulDecode i.off

/-- The epilogue: `RESULT` takes the final state, `DONE <- 1`, and no run is in progress (R203, R209). -/
def State.finishRun (st : State) (v : Variant) : State :=
  { st with inst := { st.inst with result := finalCode v st.inst, done := true, run := none } }

/-! ### RESET (R250) -/

/-- An instance after RESET: the values of R38; the instance's number and what is the host's (its buffer, its moves, what
it has read) stay (DEDUCED, log entry 7). -/
def Inst.reset (i : Inst) : Inst :=
  { Inst.initial i.id with input := i.input, moves := i.moves, readOut := i.readOut }

/-- RESET: all instances and the shared tables together (R233, R250). -/
def State.resetAll (st : State) : State :=
  { st with
    tables := Tables.afterReset st.params.autoBuild
    tblReady := st.params.autoBuild
    inst := st.inst.reset
    parked := st.parked.map Inst.reset }

/-- Whether a command of another instance is in progress. -/
def State.otherRuns (st : State) : Bool := st.parked.any fun i => i.run.isSome

/-- RESET where the host has that move: commands are atomic, so no other instance is inside one (R250, U23; log entry 15). -/
def doReset (st : State) : Answer :=
  if st.otherRuns then .refused .resetDuringCommand else .next st.resetAll

/-! ### The host's register accesses (R25 to R29) -/

/-- `INIT <- c` by the host (R26). -/
def State.setInit (st : State) (c : Code) : State :=
  { st with inst := { st.inst with init := c, initSet := true } }

/-- `LEN <- n` by the host (R25). -/
def State.setLen (st : State) (n : Nat) : State :=
  { st with inst := { st.inst with len := n, lenSet := true } }

/-- The host's buffer becomes `m` (R51). -/
def State.setInput (st : State) (m : Memory) : State := { st with inst := { st.inst with input := m } }

/-- The host's read of `r` returns `v`. -/
def State.setReadOut (st : State) (r : CReg) (v : Nat) : State :=
  { st with inst := { st.inst with readOut := some (r, v) } }

/-- The host has made its first move. -/
def State.setMoves (st : State) (ms : List HostMove) : State := { st with inst := { st.inst with moves := ms } }

/-- A host write of CR2: every value below `2^IDXW` is legal (R25; log entry 16). -/
def hostWriteLen (n : Nat) (st : State) : Answer :=
  if Config.lenFits st.params n then .next (st.setLen n) else .refused .lenNotRepresentable

/-- A host read of a control register (R25 to R29, R38; log entries 5 and 16). -/
def hostRead (r : CReg) (st : State) : Answer :=
  match r with
  | .cmd => .refused .cmdIsWriteOnly
  | .init => .next (st.setReadOut .init st.inst.init.toNat)
  | .len => .next (st.setReadOut .len st.inst.len)
  | .status => .next (st.setReadOut .status (statusWord st).toNat)
  | .result => if st.inst.done then .next (st.setReadOut .result st.inst.result.toNat) else .refused .resultHasNoValue

/-- `INIT <- RESULT`: the read of CR4 and the write of CR1 (R93, R205; log entry 17). -/
def hostCarry (st : State) : Answer :=
  if st.inst.done then .next ((st.setReadOut .result st.inst.result.toNat).setInit st.inst.result)
  else .refused .resultHasNoValue

/-! ### Instances (R233) -/

/-- Take the instance with a number out of a list. -/
def takeInst (k : Nat) : List Inst → Option (Inst × List Inst)
  | [] => none
  | i :: is =>
    if i.id = k then some (i, is)
    else (takeInst k is).map fun p => (p.1, i :: p.2)

/-- Make instance `k` the acting one. -/
def State.focus (st : State) (k : Nat) : Option State :=
  if st.inst.id = k then some st
  else (takeInst k st.parked).map fun p => { st with inst := p.1, parked := st.inst :: p.2 }

/-- The next turn, if one is left: the acting instance becomes the one it names. -/
def State.takeTurn (st : State) : Except Refusal State :=
  match st.turns with
  | [] => .ok st
  | k :: ks =>
    match ({ st with turns := ks } : State).focus k with
    | some t => .ok t
    | none => .error (.noSuchInstance k)

end Sys2Proof.Machine
end

