-- ==== Sys2Proof/Machine/Bytes.lean ====
section
/-! DEFINITION. The meanings of the 24 rows of format BYTE. The block indexes its table with the whole byte and computes
no class (R81); what each class does to the nine states is R133 to R144, and the obligations state it of these meanings. -/

namespace Sys2Proof.Machine

/-- ASCII, bytes 0x00 to 0x7F, class ASCII (R133). -/
def execAscii (b : Byte) (s : State) : Answer := byteStep b s

/-- CONT80, bytes 0x80 to 0x8F, class CONT80 (R134). -/
def execCont80 (b : Byte) (s : State) : Answer := byteStep b s

/-- CONT90, bytes 0x90 to 0x9F, class CONT90 (R135). -/
def execCont90 (b : Byte) (s : State) : Answer := byteStep b s

/-- CONTA0, bytes 0xA0 to 0xBF, class CONTA0 (R136). -/
def execContA0 (b : Byte) (s : State) : Answer := byteStep b s

/-- ILLEGAL_C0, bytes 0xC0 to 0xC1, class ILLEGAL (R137). -/
def execIllegalC0 (b : Byte) (s : State) : Answer := byteStep b s

/-- LEAD2_C2, bytes 0xC2 to 0xC3, class LEAD2 (R138). -/
def execLead2C2 (b : Byte) (s : State) : Answer := byteStep b s

/-- LEAD2_C4, bytes 0xC4 to 0xC7, class LEAD2 (R138). -/
def execLead2C4 (b : Byte) (s : State) : Answer := byteStep b s

/-- LEAD2_C8, bytes 0xC8 to 0xCF, class LEAD2 (R138). -/
def execLead2C8 (b : Byte) (s : State) : Answer := byteStep b s

/-- LEAD2_D0, bytes 0xD0 to 0xDF, class LEAD2 (R138). -/
def execLead2D0 (b : Byte) (s : State) : Answer := byteStep b s

/-- LEAD3LOW, byte 0xE0, class LEAD3LOW (R139). -/
def execLead3Low (s : State) : Answer := byteStep 0xE0 s

/-- LEAD3_E1, byte 0xE1, class LEAD3 (R140). -/
def execLead3E1 (s : State) : Answer := byteStep 0xE1 s

/-- LEAD3_E2, bytes 0xE2 to 0xE3, class LEAD3 (R140). -/
def execLead3E2 (b : Byte) (s : State) : Answer := byteStep b s

/-- LEAD3_E4, bytes 0xE4 to 0xE7, class LEAD3 (R140). -/
def execLead3E4 (b : Byte) (s : State) : Answer := byteStep b s

/-- LEAD3_E8, bytes 0xE8 to 0xEB, class LEAD3 (R140). -/
def execLead3E8 (b : Byte) (s : State) : Answer := byteStep b s

/-- LEAD3_EC, byte 0xEC, class LEAD3 (R140). -/
def execLead3EC (s : State) : Answer := byteStep 0xEC s

/-- LEAD3HIGH, byte 0xED, class LEAD3HIGH (R141). -/
def execLead3High (s : State) : Answer := byteStep 0xED s

/-- LEAD3_EE, bytes 0xEE to 0xEF, class LEAD3 (R140). -/
def execLead3EE (b : Byte) (s : State) : Answer := byteStep b s

/-- LEAD4LOW, byte 0xF0, class LEAD4LOW (R142). -/
def execLead4Low (s : State) : Answer := byteStep 0xF0 s

/-- LEAD4_F1, byte 0xF1, class LEAD4 (R143). -/
def execLead4F1 (s : State) : Answer := byteStep 0xF1 s

/-- LEAD4_F2, bytes 0xF2 to 0xF3, class LEAD4 (R143). -/
def execLead4F2 (b : Byte) (s : State) : Answer := byteStep b s

/-- LEAD4HIGH, byte 0xF4, class LEAD4HIGH (R144). -/
def execLead4High (s : State) : Answer := byteStep 0xF4 s

/-- ILLEGAL_F5, byte 0xF5, class ILLEGAL (R137). -/
def execIllegalF5 (s : State) : Answer := byteStep 0xF5 s

/-- ILLEGAL_F6, bytes 0xF6 to 0xF7, class ILLEGAL (R137). -/
def execIllegalF6 (b : Byte) (s : State) : Answer := byteStep b s

/-- ILLEGAL_F8, bytes 0xF8 to 0xFF, class ILLEGAL (R137). -/
def execIllegalF8 (b : Byte) (s : State) : Answer := byteStep b s

end Sys2Proof.Machine
end

