-- ==== Sys2Proof/Machine/Commands.lean ====
section
/-! DEFINITION. The meanings of the 16 rows of format CMD: NOP (R201), BUILD (R150), the five VALIDATE commands (R170,
R171, R181, R183, R184) and the nine blocks of reserved words (R90, R224). Every one is ignored while a fault is recorded
(R227). A VALIDATE starts the run; its byte words are then executed one a step, and the step that finds no byte left
is the epilogue (R209, Machine/Fetch.lean). -/

namespace Sys2Proof.Machine

/-- NOP: nothing (R201). -/
def execNop (s : State) : Answer := command (fun st => .next st) s

/-- BUILD: write the tables and set `TBL_READY`, unless they are built already (R150, R155). -/
def execBuild (s : State) : Answer :=
  command (fun st => if st.tblReady then .next st else .next st.installTables) s

/-- VALIDATE.DS: dense-by-state (R170). -/
def execValidateDs (s : State) : Answer := command (prologue .ds) s

/-- VALIDATE.DB: dense-by-byte (R171). -/
def execValidateDb (s : State) : Answer := command (prologue .db) s

/-- VALIDATE.P4: packed-4bit, the plain form (R181). -/
def execValidateP4 (s : State) : Answer := command (prologue .p4) s

/-- VALIDATE.P6: packed-6bit, the pre-multiplied form (R183). -/
def execValidateP6 (s : State) : Answer := command (prologue .p6) s

/-- VALIDATE.P6U: packed-6bit-unrolled (R184). -/
def execValidateP6u (s : State) : Answer := command (prologue .p6u) s

/-- A reserved word: `raise IllegalCommand`, whatever the word (R90, R224: the word is not kept). -/
def reservedWord (s : State) : Answer := command (fun st => .next (st.raise .illegalCommand)) s

/-- RESERVED_01: reserved word 0x01 (R224). -/
def execReserved01 (s : State) : Answer := reservedWord s

/-- RESERVED_02: reserved words 0x02 to 0x03 (R224). -/
def execReserved02 (_w : CmdWord) (s : State) : Answer := reservedWord s

/-- RESERVED_04: reserved words 0x04 to 0x07 (R224). -/
def execReserved04 (_w : CmdWord) (s : State) : Answer := reservedWord s

/-- RESERVED_09: reserved word 0x09 (R224). -/
def execReserved09 (s : State) : Answer := reservedWord s

/-- RESERVED_0A: reserved words 0x0A to 0x0B (R224). -/
def execReserved0A (_w : CmdWord) (s : State) : Answer := reservedWord s

/-- RESERVED_0C: reserved words 0x0C to 0x0F (R224). -/
def execReserved0C (_w : CmdWord) (s : State) : Answer := reservedWord s

/-- RESERVED_15: reserved word 0x15 (R224). -/
def execReserved15 (s : State) : Answer := reservedWord s

/-- RESERVED_16: reserved words 0x16 to 0x17 (R224). -/
def execReserved16 (_w : CmdWord) (s : State) : Answer := reservedWord s

/-- RESERVED_18: reserved words 0x18 to 0x1F (R224). -/
def execReserved18 (_w : CmdWord) (s : State) : Answer := reservedWord s

end Sys2Proof.Machine
end

