-- ==== Sys2Proof/Syntax.lean ====
section
/-! DEFINITION. The instruction words of the block: one constructor per row of spec/opcode_table.json (R82, R83).
A row that covers one word has a constructor without argument; a row that covers a block of words carries the word
itself, since all its bits are the opcode (R81) and there is no operand field. -/

namespace Sys2Proof

/-- The two formats of R80: an input byte, or a host command word. -/
inductive Format where
  | byte
  | cmd
deriving DecidableEq, Repr

/-- The instruction words: 24 rows of format BYTE (R82), then 16 rows of format CMD (R83, R90). -/
inductive Instr where
  /-- ASCII, `0xxxxxxx` (R133). -/
  | ascii (b : Byte)
  /-- CONT80, `1000xxxx` (R134). -/
  | cont80 (b : Byte)
  /-- CONT90, `1001xxxx` (R135). -/
  | cont90 (b : Byte)
  /-- CONTA0, `101xxxxx` (R136). -/
  | contA0 (b : Byte)
  /-- ILLEGAL_C0, `1100000x` (R137). -/
  | illegalC0 (b : Byte)
  /-- LEAD2_C2, `1100001x` (R138). -/
  | lead2C2 (b : Byte)
  /-- LEAD2_C4, `110001xx` (R138). -/
  | lead2C4 (b : Byte)
  /-- LEAD2_C8, `11001xxx` (R138). -/
  | lead2C8 (b : Byte)
  /-- LEAD2_D0, `1101xxxx` (R138). -/
  | lead2D0 (b : Byte)
  /-- LEAD3LOW, `11100000` (R139). -/
  | lead3Low
  /-- LEAD3_E1, `11100001` (R140). -/
  | lead3E1
  /-- LEAD3_E2, `1110001x` (R140). -/
  | lead3E2 (b : Byte)
  /-- LEAD3_E4, `111001xx` (R140). -/
  | lead3E4 (b : Byte)
  /-- LEAD3_E8, `111010xx` (R140). -/
  | lead3E8 (b : Byte)
  /-- LEAD3_EC, `11101100` (R140). -/
  | lead3EC
  /-- LEAD3HIGH, `11101101` (R141). -/
  | lead3High
  /-- LEAD3_EE, `1110111x` (R140). -/
  | lead3EE (b : Byte)
  /-- LEAD4LOW, `11110000` (R142). -/
  | lead4Low
  /-- LEAD4_F1, `11110001` (R143). -/
  | lead4F1
  /-- LEAD4_F2, `1111001x` (R143). -/
  | lead4F2 (b : Byte)
  /-- LEAD4HIGH, `11110100` (R144). -/
  | lead4High
  /-- ILLEGAL_F5, `11110101` (R137). -/
  | illegalF5
  /-- ILLEGAL_F6, `1111011x` (R137). -/
  | illegalF6 (b : Byte)
  /-- ILLEGAL_F8, `11111xxx` (R137). -/
  | illegalF8 (b : Byte)
  /-- NOP, `00000` (R201). -/
  | nop
  /-- BUILD, `01000` (R150). -/
  | build
  /-- VALIDATE.DS, `10000` (R170). -/
  | validateDs
  /-- VALIDATE.DB, `10001` (R171). -/
  | validateDb
  /-- VALIDATE.P4, `10010` (R181). -/
  | validateP4
  /-- VALIDATE.P6, `10011` (R183). -/
  | validateP6
  /-- VALIDATE.P6U, `10100` (R184). -/
  | validateP6u
  /-- RESERVED_01, `00001` (R224). -/
  | reserved01
  /-- RESERVED_02, `0001x` (R224). -/
  | reserved02 (w : CmdWord)
  /-- RESERVED_04, `001xx` (R224). -/
  | reserved04 (w : CmdWord)
  /-- RESERVED_09, `01001` (R224). -/
  | reserved09
  /-- RESERVED_0A, `0101x` (R224). -/
  | reserved0A (w : CmdWord)
  /-- RESERVED_0C, `011xx` (R224). -/
  | reserved0C (w : CmdWord)
  /-- RESERVED_15, `10101` (R224). -/
  | reserved15
  /-- RESERVED_16, `1011x` (R224). -/
  | reserved16 (w : CmdWord)
  /-- RESERVED_18, `11xxx` (R224). -/
  | reserved18 (w : CmdWord)
deriving DecidableEq, Repr

/-- The format of an instruction word's row. -/
def Instr.format : Instr → Format
  | .ascii _ => .byte
  | .cont80 _ => .byte
  | .cont90 _ => .byte
  | .contA0 _ => .byte
  | .illegalC0 _ => .byte
  | .lead2C2 _ => .byte
  | .lead2C4 _ => .byte
  | .lead2C8 _ => .byte
  | .lead2D0 _ => .byte
  | .lead3Low => .byte
  | .lead3E1 => .byte
  | .lead3E2 _ => .byte
  | .lead3E4 _ => .byte
  | .lead3E8 _ => .byte
  | .lead3EC => .byte
  | .lead3High => .byte
  | .lead3EE _ => .byte
  | .lead4Low => .byte
  | .lead4F1 => .byte
  | .lead4F2 _ => .byte
  | .lead4High => .byte
  | .illegalF5 => .byte
  | .illegalF6 _ => .byte
  | .illegalF8 _ => .byte
  | .nop => .cmd
  | .build => .cmd
  | .validateDs => .cmd
  | .validateDb => .cmd
  | .validateP4 => .cmd
  | .validateP6 => .cmd
  | .validateP6u => .cmd
  | .reserved01 => .cmd
  | .reserved02 _ => .cmd
  | .reserved04 _ => .cmd
  | .reserved09 => .cmd
  | .reserved0A _ => .cmd
  | .reserved0C _ => .cmd
  | .reserved15 => .cmd
  | .reserved16 _ => .cmd
  | .reserved18 _ => .cmd

end Sys2Proof
end

