-- ==== Sys2Proof/WellFormed.lean ====
section
/-! DEFINITION. Well-formed instructions: a constructor that carries its word carries one of its own row's block, that is
`word & mask = match` for the row's (match, mask) of R82, or of the reserved blocks of R83 and spec/opcode_table.json. -/

namespace Sys2Proof

/-- Membership of a byte in an aligned block (R82: `b & mask = match`). -/
def inBlock8 (mask value b : Byte) : Bool := b &&& mask == value

/-- Membership of a command word in an aligned block. -/
def inBlock5 (mask value w : CmdWord) : Bool := w &&& mask == value

/-- Whether the carried word belongs to the constructor's row. -/
def Instr.wellFormed : Instr → Bool
  | .ascii b => inBlock8 0x80 0x00 b
  | .cont80 b => inBlock8 0xF0 0x80 b
  | .cont90 b => inBlock8 0xF0 0x90 b
  | .contA0 b => inBlock8 0xE0 0xA0 b
  | .illegalC0 b => inBlock8 0xFE 0xC0 b
  | .lead2C2 b => inBlock8 0xFE 0xC2 b
  | .lead2C4 b => inBlock8 0xFC 0xC4 b
  | .lead2C8 b => inBlock8 0xF8 0xC8 b
  | .lead2D0 b => inBlock8 0xF0 0xD0 b
  | .lead3Low => true
  | .lead3E1 => true
  | .lead3E2 b => inBlock8 0xFE 0xE2 b
  | .lead3E4 b => inBlock8 0xFC 0xE4 b
  | .lead3E8 b => inBlock8 0xFC 0xE8 b
  | .lead3EC => true
  | .lead3High => true
  | .lead3EE b => inBlock8 0xFE 0xEE b
  | .lead4Low => true
  | .lead4F1 => true
  | .lead4F2 b => inBlock8 0xFE 0xF2 b
  | .lead4High => true
  | .illegalF5 => true
  | .illegalF6 b => inBlock8 0xFE 0xF6 b
  | .illegalF8 b => inBlock8 0xF8 0xF8 b
  | .nop => true
  | .build => true
  | .validateDs => true
  | .validateDb => true
  | .validateP4 => true
  | .validateP6 => true
  | .validateP6u => true
  | .reserved01 => true
  | .reserved02 w => inBlock5 0x1E 0x02 w
  | .reserved04 w => inBlock5 0x1C 0x04 w
  | .reserved09 => true
  | .reserved0A w => inBlock5 0x1E 0x0A w
  | .reserved0C w => inBlock5 0x1C 0x0C w
  | .reserved15 => true
  | .reserved16 w => inBlock5 0x1E 0x16 w
  | .reserved18 w => inBlock5 0x18 0x18 w

/-- The instruction is one the decoder can answer. -/
abbrev Instr.WellFormed (i : Instr) : Prop := i.wellFormed = true

end Sys2Proof
end

