-- ==== Sys2Proof/Decode.lean ====
section
/-! DEFINITION. The decoder and the encoder, both written from the tables of R82 and R83. The decoder is total on both
formats (R80): every one of the 256 bytes and of the 32 command words has exactly one row. -/

namespace Sys2Proof

/-- One row of the decode table of format BYTE (R82): a byte belongs to it when `b & mask = match`. -/
structure ByteRow where
  mask : Byte
  value : Byte
  make : Byte → Instr

/-- One row of the decode table of format CMD (R83; the reserved blocks as spec/opcode_table.json cuts them). -/
structure CmdRow where
  mask : CmdWord
  value : CmdWord
  make : CmdWord → Instr

/-- The 24 rows of R82, in its order. -/
def byteRows : List ByteRow :=
  [ ⟨0x80, 0x00, .ascii⟩,
    ⟨0xF0, 0x80, .cont80⟩,
    ⟨0xF0, 0x90, .cont90⟩,
    ⟨0xE0, 0xA0, .contA0⟩,
    ⟨0xFE, 0xC0, .illegalC0⟩,
    ⟨0xFE, 0xC2, .lead2C2⟩,
    ⟨0xFC, 0xC4, .lead2C4⟩,
    ⟨0xF8, 0xC8, .lead2C8⟩,
    ⟨0xF0, 0xD0, .lead2D0⟩,
    ⟨0xFF, 0xE0, fun _ => .lead3Low⟩,
    ⟨0xFF, 0xE1, fun _ => .lead3E1⟩,
    ⟨0xFE, 0xE2, .lead3E2⟩ ]
  ++
  [ ⟨0xFC, 0xE4, .lead3E4⟩,
    ⟨0xFC, 0xE8, .lead3E8⟩,
    ⟨0xFF, 0xEC, fun _ => .lead3EC⟩,
    ⟨0xFF, 0xED, fun _ => .lead3High⟩,
    ⟨0xFE, 0xEE, .lead3EE⟩,
    ⟨0xFF, 0xF0, fun _ => .lead4Low⟩,
    ⟨0xFF, 0xF1, fun _ => .lead4F1⟩,
    ⟨0xFE, 0xF2, .lead4F2⟩,
    ⟨0xFF, 0xF4, fun _ => .lead4High⟩,
    ⟨0xFF, 0xF5, fun _ => .illegalF5⟩,
    ⟨0xFE, 0xF6, .illegalF6⟩,
    ⟨0xF8, 0xF8, .illegalF8⟩ ]

/-- The 7 commands of R83, then the 9 blocks that hold the 25 reserved words. -/
def cmdRows : List CmdRow :=
  [ ⟨0x1F, 0x00, fun _ => .nop⟩,
    ⟨0x1F, 0x08, fun _ => .build⟩,
    ⟨0x1F, 0x10, fun _ => .validateDs⟩,
    ⟨0x1F, 0x11, fun _ => .validateDb⟩,
    ⟨0x1F, 0x12, fun _ => .validateP4⟩,
    ⟨0x1F, 0x13, fun _ => .validateP6⟩,
    ⟨0x1F, 0x14, fun _ => .validateP6u⟩ ]
  ++
  [ ⟨0x1F, 0x01, fun _ => .reserved01⟩,
    ⟨0x1E, 0x02, .reserved02⟩,
    ⟨0x1C, 0x04, .reserved04⟩,
    ⟨0x1F, 0x09, fun _ => .reserved09⟩,
    ⟨0x1E, 0x0A, .reserved0A⟩,
    ⟨0x1C, 0x0C, .reserved0C⟩,
    ⟨0x1F, 0x15, fun _ => .reserved15⟩,
    ⟨0x1E, 0x16, .reserved16⟩,
    ⟨0x18, 0x18, .reserved18⟩ ]

/-- Decode an input byte (R81, R82). The answer is never `none`: `Laws.decodeByte_total`. -/
def decodeByte (b : Byte) : Option Instr :=
  (byteRows.find? fun r => inBlock8 r.mask r.value b).map fun r => r.make b

/-- Decode a command word (R83, R90). The answer is never `none`: `Laws.decodeCmd_total`. -/
def decodeCmd (w : CmdWord) : Option Instr :=
  (cmdRows.find? fun r => inBlock5 r.mask r.value w).map fun r => r.make w

/-- A word of one of the two formats. -/
inductive TableWord where
  | byte (b : Byte)
  | cmd (w : CmdWord)
deriving DecidableEq, Repr

/-- Decode a word of either format. -/
def decode : TableWord → Option Instr
  | .byte b => decodeByte b
  | .cmd w => decodeCmd w

/-- Why a number is no word of a format. -/
inductive DecodeError where
  /-- The number needs more bits than the format has (8 for BYTE, 5 for CMD, R80; U17 of spec/93). -/
  | wordTooWide (f : Format)
  /-- No row of the format's table holds the word. Never answered (R80). -/
  | noRow (f : Format)
deriving DecidableEq, Repr

/-- Decode any natural number as a word of a format, rejecting by name what is no word of it. -/
def decodeNat (f : Format) (n : Nat) : Except DecodeError Instr :=
  match f with
  | .byte =>
    if n < 256 then
      match decodeByte (BitVec.ofNat 8 n) with
      | some i => .ok i
      | none => .error (.noRow .byte)
    else .error (.wordTooWide .byte)
  | .cmd =>
    if n < 32 then
      match decodeCmd (BitVec.ofNat 5 n) with
      | some i => .ok i
      | none => .error (.noRow .cmd)
    else .error (.wordTooWide .cmd)

/-- The word of an instruction, from the patterns of R82 and R83. -/
def encode : Instr → TableWord
  | .ascii b => .byte b
  | .cont80 b => .byte b
  | .cont90 b => .byte b
  | .contA0 b => .byte b
  | .illegalC0 b => .byte b
  | .lead2C2 b => .byte b
  | .lead2C4 b => .byte b
  | .lead2C8 b => .byte b
  | .lead2D0 b => .byte b
  | .lead3Low => .byte 0b11100000
  | .lead3E1 => .byte 0b11100001
  | .lead3E2 b => .byte b
  | .lead3E4 b => .byte b
  | .lead3E8 b => .byte b
  | .lead3EC => .byte 0b11101100
  | .lead3High => .byte 0b11101101
  | .lead3EE b => .byte b
  | .lead4Low => .byte 0b11110000
  | .lead4F1 => .byte 0b11110001
  | .lead4F2 b => .byte b
  | .lead4High => .byte 0b11110100
  | .illegalF5 => .byte 0b11110101
  | .illegalF6 b => .byte b
  | .illegalF8 b => .byte b
  | .nop => .cmd 0b00000
  | .build => .cmd 0b01000
  | .validateDs => .cmd 0b10000
  | .validateDb => .cmd 0b10001
  | .validateP4 => .cmd 0b10010
  | .validateP6 => .cmd 0b10011
  | .validateP6u => .cmd 0b10100
  | .reserved01 => .cmd 0b00001
  | .reserved02 w => .cmd w
  | .reserved04 w => .cmd w
  | .reserved09 => .cmd 0b01001
  | .reserved0A w => .cmd w
  | .reserved0C w => .cmd w
  | .reserved15 => .cmd 0b10101
  | .reserved16 w => .cmd w
  | .reserved18 w => .cmd w

/-- The word of either format that a number of the opcode table stands for.
The table numbers both formats from bit 0, so a number below 0x20 is both an ASCII byte and a command word; it is read
here as the command word, and the bytes 0x20 to 0x7F stand for row ASCII (log entry 12).
Bits above the eighth belong to no word. A row to which the table gives more than eight bits is one of the seven whose
extra fields are the reader's (spec/98_reader.md); none of them is ASCII, so its low byte below 0x80 is a command word. -/
def tableWord (nbits w : Nat) : Option TableWord :=
  let b := w % 256
  if nbits = 0 then none
  else if b < 32 ∨ (nbits ≠ 8 ∧ b < 128) then some (.cmd (BitVec.ofNat 5 b))
  else some (.byte (BitVec.ofNat 8 b))

/-- The instruction the decoder reads from a word numbered as spec/opcode_table.json numbers it. -/
def decodeTableWord (nbits w : Nat) : Option Instr :=
  (tableWord nbits w).bind decode

end Sys2Proof
end

