-- ==== Sys2Proof/Machine/Fetch.lean ====
section
/-! DEFINITION. What one step does before and beside executing an instruction word: the byte fetch of a run in progress and
its epilogue (R24, R203, R209), and the host's moves between commands (R7, R208, R210). -/

namespace Sys2Proof.Machine

/-- What the machine finds to do. -/
inductive Fetched where
  /-- Execute an instruction word in a state. -/
  | execute (i : Instr) (s : State)
  /-- The step executes no instruction word; this is its answer. -/
  | answer (o : Host.Outcome State Fault Refusal)

/-- Execute a decoded word. -/
def Fetched.ofDecoded (i : Option Instr) (s : State) : Fetched :=
  match i with
  | some i => .execute i s
  | none => .answer (.refused .undecodable)

/-- A run in progress: `b <- MemRead(IN:IDX, 1)` from the snapshot while the loop test lets a byte be consumed, and the
epilogue when it does not (R202, R203, R209). -/
def fetchByte (r : Run) (s : State) : Fetched :=
  if bytesRemain r.variant s.inst.idx r.slice.length then
    match r.slice[s.inst.idx]? with
    | some b => .ofDecoded (decodeByte b) s
    | none => .answer (.fault .inputByteAbsent)
  else .answer (.next (s.finishRun r.variant))

/-- A host move that is not the write of a command word, in the state in which the move has been made. -/
def hostMove (m : HostMove) (s : State) : Fetched :=
  match m with
  | .writeCmd w => .ofDecoded (decodeCmd w) s
  | .reset => .answer (doReset s)
  | .writeInit c => .answer (.next (s.setInit c))
  | .writeLen n => .answer (hostWriteLen n s)
  | .writeStatus _ => .answer (.refused (.registerIsReadOnly .status))
  | .writeResult _ => .answer (.refused (.registerIsReadOnly .result))
  | .supply bytes => .answer (.next (s.setInput (Memory.ofBytesAt 0 bytes)))
  | .putByte i b => .answer (.next (s.setInput (s.inst.input.write i b)))
  | .read r => .answer (hostRead r s)
  | .carryResult => .answer (hostCarry s)

/-- The acting instance: a run in progress goes on, and no host move is taken meanwhile (R208, D20); else the host's next
move is made; an instance whose host makes no move holds its state (R235). -/
def fetch (s : State) : Fetched :=
  match s.inst.run with
  | some r => fetchByte r s
  | none =>
    match s.inst.moves with
    | [] => .answer (.next s)
    | m :: ms => hostMove m (s.setMoves ms)

/-- Put a byte at an index of a list, filling a gap before it with zeros. -/
def placeAt (l : List Byte) (i : Nat) (b : Byte) : List Byte :=
  l.take i ++ List.replicate (i - l.length) 0 ++ b :: l.drop (i + 1)

/-- The state in which the next step executes the byte `b`: a run in progress goes on at its index, and where there is none
the run of `VALIDATE.DS init=Ok, bytes=[b]` has just begun; the tables are built and no fault is recorded. -/
def placeByte (b : Byte) (s : State) : State :=
  let t : State := if s.tblReady then s else s.installTables
  match s.inst.run with
  | some r => { t with turns := [], inst := { t.inst with run := some { r with slice := placeAt r.slice s.inst.idx b } } }
  | none =>
    let u : State := { t with turns := [], inst := { t.inst with err := .none } }
    (((u.setInit (1 : Code)).setLen 1).setInput (Memory.ofBytesAt 0 [b])).beginRun .ds [b]

/-- The state in which the next step executes the command word `w`: it is the host's next move. -/
def placeCmd (w : CmdWord) (s : State) : State :=
  { s with turns := [], inst := { s.inst with run := none, moves := .writeCmd w :: s.inst.moves } }

end Sys2Proof.Machine
end

