-- ==== Sys2Proof/Machine/Dispatch.lean ====
section
/-! DEFINITION. exec: one arm per constructor of Instr, each one direct call of its meaning. -/

namespace Sys2Proof.Machine

def exec (i : Instr) (s : State) : Host.Outcome State Fault Refusal :=
  match i with
  | .ascii b => Sys2Proof.Machine.execAscii b s
  | .cont80 b => Sys2Proof.Machine.execCont80 b s
  | .cont90 b => Sys2Proof.Machine.execCont90 b s
  | .contA0 b => Sys2Proof.Machine.execContA0 b s
  | .illegalC0 b => Sys2Proof.Machine.execIllegalC0 b s
  | .lead2C2 b => Sys2Proof.Machine.execLead2C2 b s
  | .lead2C4 b => Sys2Proof.Machine.execLead2C4 b s
  | .lead2C8 b => Sys2Proof.Machine.execLead2C8 b s
  | .lead2D0 b => Sys2Proof.Machine.execLead2D0 b s
  | .lead3Low => Sys2Proof.Machine.execLead3Low s
  | .lead3E1 => Sys2Proof.Machine.execLead3E1 s
  | .lead3E2 b => Sys2Proof.Machine.execLead3E2 b s
  | .lead3E4 b => Sys2Proof.Machine.execLead3E4 b s
  | .lead3E8 b => Sys2Proof.Machine.execLead3E8 b s
  | .lead3EC => Sys2Proof.Machine.execLead3EC s
  | .lead3High => Sys2Proof.Machine.execLead3High s
  | .lead3EE b => Sys2Proof.Machine.execLead3EE b s
  | .lead4Low => Sys2Proof.Machine.execLead4Low s
  | .lead4F1 => Sys2Proof.Machine.execLead4F1 s
  | .lead4F2 b => Sys2Proof.Machine.execLead4F2 b s
  | .lead4High => Sys2Proof.Machine.execLead4High s
  | .illegalF5 => Sys2Proof.Machine.execIllegalF5 s
  | .illegalF6 b => Sys2Proof.Machine.execIllegalF6 b s
  | .illegalF8 b => Sys2Proof.Machine.execIllegalF8 b s
  | .nop => Sys2Proof.Machine.execNop s
  | .build => Sys2Proof.Machine.execBuild s
  | .validateDs => Sys2Proof.Machine.execValidateDs s
  | .validateDb => Sys2Proof.Machine.execValidateDb s
  | .validateP4 => Sys2Proof.Machine.execValidateP4 s
  | .validateP6 => Sys2Proof.Machine.execValidateP6 s
  | .validateP6u => Sys2Proof.Machine.execValidateP6u s
  | .reserved01 => Sys2Proof.Machine.execReserved01 s
  | .reserved02 w => Sys2Proof.Machine.execReserved02 w s
  | .reserved04 w => Sys2Proof.Machine.execReserved04 w s
  | .reserved09 => Sys2Proof.Machine.execReserved09 s
  | .reserved0A w => Sys2Proof.Machine.execReserved0A w s
  | .reserved0C w => Sys2Proof.Machine.execReserved0C w s
  | .reserved15 => Sys2Proof.Machine.execReserved15 s
  | .reserved16 w => Sys2Proof.Machine.execReserved16 w s
  | .reserved18 w => Sys2Proof.Machine.execReserved18 w s

end Sys2Proof.Machine
end

