-- ==== Sys2Proof/Machine/Step.lean ====
section
/-! DEFINITION. One step of the machine: the next turn is taken, the acting instance fetches, and the instruction word it
fetched is executed. -/

namespace Sys2Proof.Machine

/-- Carry out what was fetched. -/
def perform (f : Fetched) : Host.Outcome State Fault Refusal :=
  match f with
  | .execute i s => exec i s
  | .answer o => o

/-- One step. -/
def step (s : State) : Host.Outcome State Fault Refusal :=
  match s.takeTurn with
  | .ok t => perform (fetch t)
  | .error r => .refused r

/-- `s` with the instruction of an opcode-table word stored where step fetches next: a command word as the host's next
move, a byte as the next byte of the run in progress (log entry 11). -/
def State.withFetchWord (s : State) (nbits w : Nat) : State :=
  match tableWord nbits w with
  | some (.cmd c) => placeCmd c s
  | some (.byte b) => placeByte b s
  | none => s

end Sys2Proof.Machine
end

