-- ==== Sys2Proof/Machine/Moves.lean ====
section
/-! DEFINITION. The command syntax of R92 and the pseudo-operations of R93, as the host moves they expand to. They are a
notation for writing down what a host does; the block parses none of them. -/

namespace Sys2Proof.Machine

/-- The command word of a VALIDATE variant (R83: `OP` is 2, `VAR` the variant's place in the list). -/
def Variant.cmdWord : Variant → CmdWord
  | .ds => 0b10000
  | .db => 0b10001
  | .p4 => 0b10010
  | .p6 => 0b10011
  | .p6u => 0b10100

/-- `BUILD` (R92). -/
def buildMoves : List HostMove := [.writeCmd 0b01000]

/-- `VALIDATE.v init=X, bytes=[...]`; `LEN` is the list's length (R92). -/
def validateMoves (v : Variant) (X : DState) (bytes : List Byte) : List HostMove :=
  [.writeInit (code X), .writeLen bytes.length, .supply bytes, .writeCmd v.cmdWord]

/-- `transition(X, y)` as a run (R93 (b)). -/
def transitionMoves (v : Variant) (X : DState) (y : Byte) : List HostMove := validateMoves v X [y]

/-- `is_valid(b)`: a run from `Ok`, then the read of `STATUS` whose bit 4 answers (R93 (a), (c)). -/
def isValidMoves (v : Variant) (bytes : List Byte) : List HostMove :=
  validateMoves v .ok bytes ++ [.read .status]

/-- `validate_chunked(b, k)`: the first `k` bytes, `INIT <- RESULT`, then the rest, each in its own variant (R93 (d)). -/
def chunkedMoves (v w : Variant) (bytes : List Byte) (k : Nat) : List HostMove :=
  validateMoves v .ok (bytes.take k) ++
    [.carryResult, .writeLen (bytes.drop k).length, .supply (bytes.drop k), .writeCmd w.cmdWord]

end Sys2Proof.Machine
end

