-- ==== Sys2Proof/Safety.lean ====
section
/-! DEFINITION. The terms the claims are stated in: what a register is said to carry, when a VALIDATE runs, several steps,
the invariant of the running state, and the grammar of RFC 3629 that R146 quotes. -/

namespace Sys2Proof.Safety

open Sys2Proof.Machine

/-- `k` steps, stopping at the first fault or refusal. -/
def stepN : Nat → State → Host.Outcome State Fault Refusal
  | 0, s => .next s
  | k + 1, s =>
    match step s with
    | .next t => stepN k t
    | .fault f => .fault f
    | .refused r => .refused r

/-- The register that a variant carries holds the automaton state `X`: `S = code(X)`, or `OFF[5:0] = 6 * code(X)`
(R35). -/
abbrev Carries (v : Variant) (i : Inst) (X : DState) : Prop :=
  if v.rawState then i.s = code X else shiftAmount i.off = premulLoad (code X)

/-- The offset that a run of a pre-multiplied variant holds after the bytes, all 64 bits of it, from an initial state
(R182, R186). -/
def offAfter (X : DState) (bytes : List Byte) : Row :=
  bytes.foldl (fun off b => premulStep (buildRow6p b) off) (premulLoad (code X))

/-- The acting instance's VALIDATE passes its prologue, with the initial state `X` and the slice `bytes` (R202, R210),
whether or not the host has written `INIT` and `LEN` since RESET (the model's choice, log entry 5). -/
structure CanValidate (s : State) (X : DState) (bytes : List Byte) : Prop where
  noFault : s.inst.err = .none
  ready : s.tblReady = true
  built : s.tables = Tables.built
  init : s.inst.init = code X
  slice : snapshot s.inst = some bytes

/-- The state of an idle block between commands, ready to take one: no fault, tables built, no run in progress, and the
acting instance keeps its turn. -/
structure Idle (s : State) : Prop where
  noFault : s.inst.err = .none
  ready : s.tblReady = true
  built : s.tables = Tables.built
  noRun : s.inst.run = none
  noTurn : s.turns = []

/-- The VALIDATE instruction of a variant (R83). -/
def validateInstr : Variant → Instr
  | .ds => .validateDs
  | .db => .validateDb
  | .p4 => .validateP4
  | .p6 => .validateP6
  | .p6u => .validateP6u

/-- The state when a run of variant `v` on `bytes` from `X` has ended, as a function of the state in which its VALIDATE was
executed (R170, R171, R181, R183, R184: the carried register, `IDX`, `RESULT` and `DONE` are written, nothing else). -/
def afterRun (v : Variant) (X : DState) (bytes : List Byte) (s : State) : State :=
  if v.rawState then
    { s with inst := { s.inst with
      s := code (deltaStar X bytes), idx := bytes.length, result := code (deltaStar X bytes), done := true, run := none } }
  else
    { s with inst := { s.inst with
      off := offAfter X bytes, idx := bytes.length, result := code (deltaStar X bytes), done := true, run := none } }

/-- What a VALIDATE does: ignored while a fault is recorded; `TablesNotBuilt`; `IllegalInitialState`; and otherwise the run
begins with `DONE = 0`, `IDX = 0` and the carried register loaded from `INIT`, and after one step for each byte and the
epilogue it has ended with the final state in `RESULT` (R202, R203, R209, R222, R223, R227), on operands written since
RESET or not (the model's choice, log entry 5). -/
def FollowsValidateRule (v : Variant) (w : CmdWord) : Prop :=
  encode (validateInstr v) = .cmd w ∧
  (∀ s, s.inst.err ≠ .none → exec (validateInstr v) s = .next s) ∧
  (∀ s, s.inst.err = .none → s.tblReady = false →
    exec (validateInstr v) s = .next { s with inst := { s.inst with err := .tablesNotBuilt, done := false } }) ∧
  (∀ s, s.inst.err = .none → s.tblReady = true → 8 < s.inst.init.toNat →
    exec (validateInstr v) s = .next { s with inst := { s.inst with err := .illegalInitialState, done := false } }) ∧
  ∀ s X bytes, CanValidate s X bytes →
    ∃ t, exec (validateInstr v) s = .next t ∧
      (v.rawState = true → t = { s with inst :=
        { s.inst with done := false, idx := 0, s := code X, run := some ⟨v, bytes⟩ } }) ∧
      (v.rawState = false → t = { s with inst :=
        { s.inst with done := false, idx := 0, off := 6 * zext64 (code X), run := some ⟨v, bytes⟩ } }) ∧
      (s.turns = [] → stepN (bytes.length + 1) t = .next (afterRun v X bytes s))

/-- The instruction executes on every state with built tables and a run in progress, whatever the carried state `X`: its next state
is the one its class rule gives (R133 to R144). `col` is the class's column; `r4`, `r6` and `r6n` are the three packed
values of the word's byte. -/
def FollowsClassRule (i : Instr) (col : DState → DState) (r4 r6 r6n : Row) : Prop :=
  (∀ b, encode i = .byte b →
    Tables.built.readRow4 b = some r4 ∧ Tables.built.readRow6p b = some r6 ∧ buildRow6n b = r6n) ∧
  ∀ (s : State) (r : Run) (X : DState), s.tables = Tables.built → s.inst.run = some r → Carries r.variant s.inst X →
    ∃ t, exec i s = .next t ∧ Carries r.variant t.inst (col X) ∧
      (r.variant.rawState = true →
        t = { s with inst := { s.inst with s := code (col X), idx := s.inst.idx + 1 } }) ∧
      (r.variant.rawState = false →
        t = { s with inst :=
          { s.inst with off := r6 >>> (6 * (code X).toNat), idx := s.inst.idx + 1 } })

/-- The invariant of a run in progress: tables built, no fault, the operands as the prologue found them, `IDX <= LEN`, and
the carried register at the state that the bytes consumed lead to (R35, R62, R172, R186, R187). -/
def RunInv (ready : Bool) (i : Inst) (r : Run) : Prop :=
  ready = true ∧ i.err = .none ∧ i.done = false ∧
  snapshot i = some r.slice ∧ i.idx ≤ i.len ∧
  ∃ X, i.init = code X ∧ Carries r.variant i (deltaStar X (r.slice.take i.idx)) ∧
    (r.variant.rawState = false → 0 < i.idx → i.off.toNat < 2 ^ 54)

/-- The invariant of one instance: its buffer is in canonical form, `LEN` fits in `IDXW` bits, `RESULT` is a state code
while `DONE = 1`, and a run in progress keeps `RunInv` (R25, R28, R29). -/
def InstInv (p : Params) (ready : Bool) (i : Inst) : Prop :=
  i.input.wf = true ∧ Config.lenFits p i.len = true ∧
  (i.done = true → ready = true ∧ i.err = .none ∧ i.run = none ∧ ∃ X, i.result = code X) ∧
  ∀ r, i.run = some r → RunInv ready i r

/-- The invariant of the block: the tables hold their built values exactly when `TBL_READY = 1` and no value otherwise, the
instances' numbers differ, and every instance keeps `InstInv` (R28, R30, R59, R233). -/
def Inv (s : State) : Prop :=
  (if s.tblReady then s.tables = Tables.built else s.tables = Tables.empty) ∧
  (s.params.autoBuild = true → s.tblReady = true) ∧
  ((s.inst :: s.parked).map Inst.id).Nodup ∧
  ∀ i ∈ s.inst :: s.parked, InstInv s.params s.tblReady i

/-- `UTF8-tail` of R146. -/
abbrev IsTail (b : Byte) : Prop := inRange 0x80 0xBF b = true

/-- `UTF8-char` of R146, alternative by alternative. -/
inductive Utf8Char : List Byte → Prop where
  | one (a : Byte) : inRange 0x00 0x7F a = true → Utf8Char [a]
  | two (a b : Byte) : inRange 0xC2 0xDF a = true → IsTail b → Utf8Char [a, b]
  | threeE0 (b c : Byte) : inRange 0xA0 0xBF b = true → IsTail c → Utf8Char [0xE0, b, c]
  | threeE1 (a b c : Byte) : inRange 0xE1 0xEC a = true → IsTail b → IsTail c → Utf8Char [a, b, c]
  | threeED (b c : Byte) : inRange 0x80 0x9F b = true → IsTail c → Utf8Char [0xED, b, c]
  | threeEE (a b c : Byte) : inRange 0xEE 0xEF a = true → IsTail b → IsTail c → Utf8Char [a, b, c]
  | fourF0 (b c d : Byte) : inRange 0x90 0xBF b = true → IsTail c → IsTail d → Utf8Char [0xF0, b, c, d]
  | fourF1 (a b c d : Byte) : inRange 0xF1 0xF3 a = true → IsTail b → IsTail c → IsTail d → Utf8Char [a, b, c, d]
  | fourF4 (b c d : Byte) : inRange 0x80 0x8F b = true → IsTail c → IsTail d → Utf8Char [0xF4, b, c, d]

/-- `UTF8-octets` of R146. -/
inductive Utf8Octets : List Byte → Prop where
  | empty : Utf8Octets []
  | more (u v : List Byte) : Utf8Char u → Utf8Octets v → Utf8Octets (u ++ v)

end Sys2Proof.Safety
end

