-- ==== Sys2Proof/Certificates/Slice0/Obligations.lean ====
section
/-! DEFINITION. The statements for the provers. Each docstring names the rules of spec/ that the statement formalises. -/

open Sys2Proof Sys2Proof.Machine Sys2Proof.Safety

/-! ### Encodings (R80 to R90) -/

/-- R80, R82, R83: decoding the word of a well-formed instruction gives that instruction back, for all 40 constructors. -/
def Obligations.DecodeOfEncodeIsIdentity : Prop :=
  ∀ i : Instr, i.WellFormed → decode (encode i) = some i

/-- R80, R82: each of the 256 bytes and of the 32 command words matches exactly one row of its table, and decodes to a
well-formed instruction of its format whose word it is. -/
def Obligations.EveryWordHasExactlyOneRow : Prop :=
  (∀ b : Byte, (byteRows.filter fun r => inBlock8 r.mask r.value b).length = 1 ∧
    ∃ i, decodeByte b = some i ∧ i.WellFormed ∧ i.format = .byte ∧ encode i = .byte b) ∧
  (∀ w : CmdWord, (cmdRows.filter fun r => inBlock5 r.mask r.value w).length = 1 ∧
    ∃ i, decodeCmd w = some i ∧ i.WellFormed ∧ i.format = .cmd ∧ encode i = .cmd w)

/-- R82, R83, R90: words written out from the tables' patterns decode to their rows. -/
def Obligations.WordsOfTheTablesDecode : Prop :=
  decodeByte 0b01001000 = some (.ascii 0x48) ∧ decodeByte 0b10001111 = some (.cont80 0x8F) ∧
  decodeByte 0b11000011 = some (.lead2C2 0xC3) ∧ decodeByte 0b11101101 = some .lead3High ∧
  decodeByte 0b11110100 = some .lead4High ∧ decodeByte 0b11111111 = some (.illegalF8 0xFF) ∧
  decodeCmd 0b01000 = some .build ∧ decodeCmd 0b10100 = some .validateP6u ∧
  decodeCmd 0b11101 = some (.reserved18 0b11101)

/-! ### The step (R203, R208, R209, R235) -/

/-- R24, R209: while a run is in progress and the loop test lets a byte be consumed, a step executes the word decoded from
`IN[IDX]`, as the snapshot has it. -/
def Obligations.StepExecutesFetchedByteWord : Prop :=
  ∀ (s t : State) (r : Run) (b : Byte) (i : Instr), s.takeTurn = .ok t → t.inst.run = some r →
    bytesRemain r.variant t.inst.idx r.slice.length = true → r.slice[t.inst.idx]? = some b → decodeByte b = some i →
    step s = exec i t

/-- R27, R208: while no run is in progress, a step whose host's next move is the write of a command word executes the
instruction decoded from it, the move being made. -/
def Obligations.StepExecutesWrittenCommand : Prop :=
  ∀ (s t : State) (w : CmdWord) (ms : List HostMove) (i : Instr), s.takeTurn = .ok t → t.inst.run = none →
    t.inst.moves = .writeCmd w :: ms → decodeCmd w = some i →
    step s = exec i { t with inst := { t.inst with moves := ms } }

/-- R203, R209: when the run's index has reached the end of its slice, the step is the epilogue: `RESULT` takes `S`, or
`(OFF & 63) / 6`, `DONE` is set and the run is over; nothing else changes. -/
def Obligations.StepAtEndOfSliceIsEpilogue : Prop :=
  ∀ (s t : State) (r : Run), s.takeTurn = .ok t → t.inst.run = some r → t.inst.idx = r.slice.length →
    step s = .next { t with inst := { t.inst with
      result := if r.variant = .p6 ∨ r.variant = .p6u then ((t.inst.off &&& 63) / 6).setWidth 4 else t.inst.s
      done := true, run := none } }

/-- R235: an instance with no run in progress whose host makes no move holds its state. -/
def Obligations.IdleStepHoldsState : Prop :=
  ∀ s t : State, s.takeTurn = .ok t → t.inst.run = none → t.inst.moves = [] → step s = .next t

/-- R233: a turn makes the instance it names the acting one, only rearranges the instances (none is lost, changed or
doubled), and touches neither the tables nor `TBL_READY`. That turns come from a list in State, and that a turn for a number
that no instance has is refused as `noSuchInstance`, a stop that only the model has, are the model's choices (log entry 4). -/
def Obligations.TurnOnlyChoosesActingInstance : Prop :=
  (∀ (s t : State) (k : Nat) (ks : List Nat), s.turns = k :: ks → s.takeTurn = .ok t →
    t.inst.id = k ∧ t.turns = ks ∧ t.params = s.params ∧ t.tables = s.tables ∧ t.tblReady = s.tblReady ∧
    List.Perm (t.inst :: t.parked) (s.inst :: s.parked)) ∧
  (∀ (s : State) (k : Nat) (ks : List Nat), s.turns = k :: ks → (∀ j ∈ s.inst :: s.parked, j.id ≠ k) →
    step s = .refused (.noSuchInstance k))

/-! ### The transition function (R110 to R147) -/

/-- R110: the transition function is the table of seventeen rows with the default `Fail`, and at most one row applies. -/
def Obligations.DeltaIsTheRowTable : Prop :=
  ∀ (X : DState) (b : Byte),
    (∀ F lo hi T, (F, lo, hi, T) ∈ grammarRows → F = X → lo ≤ b.toNat → b.toNat ≤ hi → delta X b = T) ∧
    ((∀ F lo hi T, (F, lo, hi, T) ∈ grammarRows → F = X → ¬ (lo ≤ b.toNat ∧ b.toNat ≤ hi)) → delta X b = .fail)

/-- R127, R131, R132: `delta*` is the left fold of `delta`, composes over any split, and stays in `Fail`. -/
def Obligations.DeltaStarComposes : Prop :=
  (∀ X, deltaStar X [] = X) ∧ (∀ X b bs, deltaStar X (b :: bs) = deltaStar (delta X b) bs) ∧
  (∀ X u v, deltaStar X (u ++ v) = deltaStar (deltaStar X u) v) ∧
  (∀ v, deltaStar .fail v = .fail) ∧ (∀ X u v, deltaStar X u = .fail → deltaStar X (u ++ v) = .fail)

/-- R147: the twelve classes partition the bytes with the counts given, agree with the transition function, and are told
apart by it; there are twelve distinct rows in `ROW4` and in `ROW6P`. -/
def Obligations.ClassViewIsComplete : Prop :=
  (allBytes.map classOf).count .ascii = 128 ∧ (allBytes.map classOf).count .cont80 = 16 ∧
  (allBytes.map classOf).count .cont90 = 16 ∧ (allBytes.map classOf).count .contA0 = 32 ∧
  (allBytes.map classOf).count .illegal = 13 ∧ (allBytes.map classOf).count .lead2 = 30 ∧
  (allBytes.map classOf).count .lead3Low = 1 ∧ (allBytes.map classOf).count .lead3 = 14 ∧
  (allBytes.map classOf).count .lead3High = 1 ∧ (allBytes.map classOf).count .lead4Low = 1 ∧
  (allBytes.map classOf).count .lead4 = 3 ∧ (allBytes.map classOf).count .lead4High = 1 ∧
  (∀ X b, delta X b = column (classOf b) X) ∧
  (∀ b c, classOf b = classOf c ↔ ∀ X, delta X b = delta X c) ∧
  Tables.built.row4.dedup.length = 12 ∧ Tables.built.row6p.dedup.length = 12

/-- R130: a run of `delta` that starts in `Ok` is back in `Ok` or in `Fail` within four bytes, that is, no path of other
states is longer than three. -/
def Obligations.SequencesCloseWithinFourBytes : Prop :=
  ∀ bytes : List Byte, 4 ≤ bytes.length →
    ∃ k, 1 ≤ k ∧ k ≤ 4 ∧ (deltaStar .ok (bytes.take k) = .ok ∨ deltaStar .ok (bytes.take k) = .fail)

/-! ### The byte words (R133 to R144) -/

/-- R133: class ASCII, every byte of the class (the words of its row), in every variant and from every carried state. -/
def Obligations.AsciiWordKeepsOkOnly : Prop :=
  (∀ b, inRange 0x00 0x7F b = true →
    decodeByte b = some (.ascii b) ∧
    FollowsClassRule (.ascii b) (fun X => if X = .ok then .ok else .fail)
      0x0000000000000010 0x0000000000000180 0x0000000000000040)

/-- R134: class CONT80, every byte of the class (the words of its row), in every variant and from every carried state. -/
def Obligations.Cont80WordConsumesTailByte : Prop :=
  (∀ b, inRange 0x80 0x8F b = true →
    decodeByte b = some (.cont80 b) ∧
    FollowsClassRule (.cont80 b) (fun X => match X with
        | .fail => .fail | .ok => .fail | .tail1 => .ok | .tail2 => .tail1 | .tail3 => .tail2
        | .lead3Low => .fail | .lead3High => .tail1 | .lead4Low => .fail | .lead4High => .tail2)
      0x0000000302032100 0x001200C012306000 0x0003002003081000)

/-- R135: class CONT90, every byte of the class (the words of its row), in every variant and from every carried state. -/
def Obligations.Cont90WordConsumesTailByte : Prop :=
  (∀ b, inRange 0x90 0x9F b = true →
    decodeByte b = some (.cont90 b) ∧
    FollowsClassRule (.cont90 b) (fun X => match X with
        | .fail => .fail | .ok => .fail | .tail1 => .ok | .tail2 => .tail1 | .tail3 => .tail2
        | .lead3Low => .fail | .lead3High => .tail1 | .lead4Low => .tail2 | .lead4High => .fail)
      0x0000000032032100 0x000048C012306000 0x00000C2003081000)

/-- R136: class CONTA0, every byte of the class (the words of its row), in every variant and from every carried state. -/
def Obligations.ContA0WordConsumesTailByte : Prop :=
  (∀ b, inRange 0xA0 0xBF b = true →
    decodeByte b = some (.contA0 b) ∧
    FollowsClassRule (.contA0 b) (fun X => match X with
        | .fail => .fail | .ok => .fail | .tail1 => .ok | .tail2 => .tail1 | .tail3 => .tail2
        | .lead3Low => .tail1 | .lead3High => .fail | .lead4Low => .tail2 | .lead4High => .fail)
      0x0000000030232100 0x0000480312306000 0x00000C0083081000)

/-- R137: class ILLEGAL, every byte of the class (the words of its 4 rows), in every variant and from every carried state. -/
def Obligations.IllegalWordExecutesToFail : Prop :=
  (∀ b, inRange 0xC0 0xC1 b = true →
    decodeByte b = some (.illegalC0 b) ∧
    FollowsClassRule (.illegalC0 b) (fun _ => .fail)
      0x0000000000000000 0x0000000000000000 0x0000000000000000) ∧
  (decodeByte 0xF5 = some .illegalF5 ∧
    FollowsClassRule .illegalF5 (fun _ => .fail)
      0x0000000000000000 0x0000000000000000 0x0000000000000000) ∧
  (∀ b, inRange 0xF6 0xF7 b = true →
    decodeByte b = some (.illegalF6 b) ∧
    FollowsClassRule (.illegalF6 b) (fun _ => .fail)
      0x0000000000000000 0x0000000000000000 0x0000000000000000) ∧
  (∀ b, inRange 0xF8 0xFF b = true →
    decodeByte b = some (.illegalF8 b) ∧
    FollowsClassRule (.illegalF8 b) (fun _ => .fail)
      0x0000000000000000 0x0000000000000000 0x0000000000000000)

/-- R138: class LEAD2, every byte of the class (the words of its 4 rows), in every variant and from every carried state. -/
def Obligations.Lead2WordEntersTail1 : Prop :=
  (∀ b, inRange 0xC2 0xC3 b = true →
    decodeByte b = some (.lead2C2 b) ∧
    FollowsClassRule (.lead2C2 b) (fun X => if X = .ok then .tail1 else .fail)
      0x0000000000000020 0x0000000000000300 0x0000000000000080) ∧
  (∀ b, inRange 0xC4 0xC7 b = true →
    decodeByte b = some (.lead2C4 b) ∧
    FollowsClassRule (.lead2C4 b) (fun X => if X = .ok then .tail1 else .fail)
      0x0000000000000020 0x0000000000000300 0x0000000000000080) ∧
  (∀ b, inRange 0xC8 0xCF b = true →
    decodeByte b = some (.lead2C8 b) ∧
    FollowsClassRule (.lead2C8 b) (fun X => if X = .ok then .tail1 else .fail)
      0x0000000000000020 0x0000000000000300 0x0000000000000080) ∧
  (∀ b, inRange 0xD0 0xDF b = true →
    decodeByte b = some (.lead2D0 b) ∧
    FollowsClassRule (.lead2D0 b) (fun X => if X = .ok then .tail1 else .fail)
      0x0000000000000020 0x0000000000000300 0x0000000000000080)

/-- R139: class LEAD3LOW, every byte of the class (the words of its row), in every variant and from every carried state. -/
def Obligations.Lead3LowWordEntersLead3Low : Prop :=
  decodeByte 0xE0 = some .lead3Low ∧
    FollowsClassRule .lead3Low (fun X => if X = .ok then .lead3Low else .fail)
      0x0000000000000050 0x0000000000000780 0x0000000000000140

/-- R140: class LEAD3, every byte of the class (the words of its 6 rows), in every variant and from every carried state. -/
def Obligations.Lead3WordEntersTail2 : Prop :=
  (decodeByte 0xE1 = some .lead3E1 ∧
    FollowsClassRule .lead3E1 (fun X => if X = .ok then .tail2 else .fail)
      0x0000000000000030 0x0000000000000480 0x00000000000000C0) ∧
  (∀ b, inRange 0xE2 0xE3 b = true →
    decodeByte b = some (.lead3E2 b) ∧
    FollowsClassRule (.lead3E2 b) (fun X => if X = .ok then .tail2 else .fail)
      0x0000000000000030 0x0000000000000480 0x00000000000000C0) ∧
  (∀ b, inRange 0xE4 0xE7 b = true →
    decodeByte b = some (.lead3E4 b) ∧
    FollowsClassRule (.lead3E4 b) (fun X => if X = .ok then .tail2 else .fail)
      0x0000000000000030 0x0000000000000480 0x00000000000000C0) ∧
  (∀ b, inRange 0xE8 0xEB b = true →
    decodeByte b = some (.lead3E8 b) ∧
    FollowsClassRule (.lead3E8 b) (fun X => if X = .ok then .tail2 else .fail)
      0x0000000000000030 0x0000000000000480 0x00000000000000C0) ∧
  (decodeByte 0xEC = some .lead3EC ∧
    FollowsClassRule .lead3EC (fun X => if X = .ok then .tail2 else .fail)
      0x0000000000000030 0x0000000000000480 0x00000000000000C0) ∧
  (∀ b, inRange 0xEE 0xEF b = true →
    decodeByte b = some (.lead3EE b) ∧
    FollowsClassRule (.lead3EE b) (fun X => if X = .ok then .tail2 else .fail)
      0x0000000000000030 0x0000000000000480 0x00000000000000C0)

/-- R141: class LEAD3HIGH, every byte of the class (the words of its row), in every variant and from every carried state. -/
def Obligations.Lead3HighWordEntersLead3High : Prop :=
  decodeByte 0xED = some .lead3High ∧
    FollowsClassRule .lead3High (fun X => if X = .ok then .lead3High else .fail)
      0x0000000000000060 0x0000000000000900 0x0000000000000180

/-- R142: class LEAD4LOW, every byte of the class (the words of its row), in every variant and from every carried state. -/
def Obligations.Lead4LowWordEntersLead4Low : Prop :=
  decodeByte 0xF0 = some .lead4Low ∧
    FollowsClassRule .lead4Low (fun X => if X = .ok then .lead4Low else .fail)
      0x0000000000000070 0x0000000000000A80 0x00000000000001C0

/-- R143: class LEAD4, every byte of the class (the words of its 2 rows), in every variant and from every carried state. -/
def Obligations.Lead4WordEntersTail3 : Prop :=
  (decodeByte 0xF1 = some .lead4F1 ∧
    FollowsClassRule .lead4F1 (fun X => if X = .ok then .tail3 else .fail)
      0x0000000000000040 0x0000000000000600 0x0000000000000100) ∧
  (∀ b, inRange 0xF2 0xF3 b = true →
    decodeByte b = some (.lead4F2 b) ∧
    FollowsClassRule (.lead4F2 b) (fun X => if X = .ok then .tail3 else .fail)
      0x0000000000000040 0x0000000000000600 0x0000000000000100)

/-- R144: class LEAD4HIGH, every byte of the class (the words of its row), in every variant and from every carried state. -/
def Obligations.Lead4HighWordEntersLead4High : Prop :=
  decodeByte 0xF4 = some .lead4High ∧
    FollowsClassRule .lead4High (fun X => if X = .ok then .lead4High else .fail)
      0x0000000000000080 0x0000000000000C00 0x0000000000000200

/-- R55, R81, R110: whatever byte a word was decoded from, executing it moves the carried state by `delta`, in every
variant, and the index by one. -/
def Obligations.EveryByteWordAppliesDelta : Prop :=
  ∀ (s : State) (r : Run) (X : DState) (b : Byte) (i : Instr), decodeByte b = some i → s.tables = Tables.built →
    s.inst.run = some r → Carries r.variant s.inst X →
    ∃ t, exec i s = .next t ∧ Carries r.variant t.inst (delta X b) ∧ t.inst.idx = s.inst.idx + 1

/-- R55, R170, R171, R180 to R184: which table a byte word reads, for any contents of the tables and of `S` and `OFF`: the
entry `[S][b]` of `DENSE_SB` in DS, `[b][S]` of `DENSE_BS` in DB, row `b` of `ROW4` in P4 and of `ROW6P` in P6 and P6U. The
carried register takes what the entry gives, `IDX` is one more and nothing else changes. An entry without a value stops
the word with the fault `tableEntryAbsent`, which is the model's choice (log entry 14). -/
def Obligations.ByteWordReadsTheTableOfItsVariant : Prop :=
  ∀ (s : State) (r : Run) (b : Byte) (i : Instr), decodeByte b = some i → s.inst.run = some r →
    (r.variant = .ds →
      (∀ n, s.tables.readSb s.inst.s b = some n →
        exec i s = .next { s with inst := { s.inst with s := n, idx := s.inst.idx + 1 } }) ∧
      (s.tables.readSb s.inst.s b = none → exec i s = .fault .tableEntryAbsent)) ∧
    (r.variant = .db →
      (∀ n, s.tables.readBs b s.inst.s = some n →
        exec i s = .next { s with inst := { s.inst with s := n, idx := s.inst.idx + 1 } }) ∧
      (s.tables.readBs b s.inst.s = none → exec i s = .fault .tableEntryAbsent)) ∧
    (r.variant = .p4 →
      (∀ row, s.tables.readRow4 b = some row →
        exec i s = .next { s with inst :=
          { s.inst with s := ((row >>> (s.inst.s.toNat * 4)) &&& 15).setWidth 4, idx := s.inst.idx + 1 } }) ∧
      (s.tables.readRow4 b = none → exec i s = .fault .tableEntryAbsent)) ∧
    (r.variant = .p6 ∨ r.variant = .p6u →
      (∀ row, s.tables.readRow6p b = some row →
        exec i s = .next { s with inst :=
          { s.inst with off := row >>> (s.inst.off &&& 63).toNat, idx := s.inst.idx + 1 } }) ∧
      (s.tables.readRow6p b = none → exec i s = .fault .tableEntryAbsent))

/-- R24, R32, R206: what a byte word leaves unchanged when it answers a next state, in any state whatever. Its only
destinations are `IDX` and the register its variant carries: `S`, or `OFF`. -/
def Obligations.ByteWordFrame : Prop :=
  ∀ (i : Instr) (s t : State), i.format = .byte → exec i s = .next t →
    (∃ r, s.inst.run = some r ∧ (r.variant.rawState = true → t.inst.off = s.inst.off) ∧
      (r.variant.rawState = false → t.inst.s = s.inst.s)) ∧
    t.inst.idx = s.inst.idx + 1 ∧ t.inst.id = s.inst.id ∧ t.inst.init = s.inst.init ∧ t.inst.initSet = s.inst.initSet ∧
    t.inst.len = s.inst.len ∧ t.inst.lenSet = s.inst.lenSet ∧ t.inst.done = s.inst.done ∧ t.inst.err = s.inst.err ∧
    t.inst.result = s.inst.result ∧ t.inst.run = s.inst.run ∧ t.inst.moves = s.inst.moves ∧
    t.inst.readOut = s.inst.readOut ∧ statusWord t = statusWord s ∧ t.tblReady = s.tblReady ∧ t.params = s.params ∧
    t.parked = s.parked ∧ t.turns = s.turns ∧
    (∀ a, t.inst.input.read a = s.inst.input.read a) ∧
    (∀ c b, t.tables.readSb c b = s.tables.readSb c b ∧ t.tables.readBs b c = s.tables.readBs b c ∧
      t.tables.readRow4 b = s.tables.readRow4 b ∧ t.tables.readRow6p b = s.tables.readRow6p b)

/-! ### The tables and BUILD (R86 to R89, R150 to R158) -/

/-- R150 to R155: the word `01000` is BUILD; it is ignored while a fault is recorded, is a no-op when the tables are
built, and otherwise sets `TBL_READY` and writes every entry of the four tables, and nothing else. The packed rows are the
sums of R153 and R154, and a row of `ROW6P` is six times the reference row of R88. -/
def Obligations.BuildWritesEveryTableOnce : Prop :=
  decodeCmd 0b01000 = some .build ∧
  (∀ s, s.inst.err ≠ .none → exec .build s = .next s) ∧ (∀ s, s.tblReady = true → exec .build s = .next s) ∧
  ∀ s, s.inst.err = .none → s.tblReady = false →
    ∃ T, exec .build s = .next { s with tables := T, tblReady := true } ∧
      (∀ X b, T.readSb (code X) b = some (code (delta X b))) ∧
      (∀ X b, T.readBs b (code X) = some (code (delta X b))) ∧
      (∀ b, ∃ row, T.readRow4 b = some row ∧ row.toNat < 2 ^ 36 ∧
        row.toNat = (allStates.map fun X => (code (delta X b)).toNat * 2 ^ (4 * (code X).toNat)).sum) ∧
      (∀ b, ∃ row, T.readRow6p b = some row ∧ row.toNat < 2 ^ 54 ∧
        row.toNat = (allStates.map fun X => 6 * (code (delta X b)).toNat * 2 ^ (6 * (code X).toNat)).sum ∧
        row.toNat = 6 * (buildRow6n b).toNat)

/-- R156: after a BUILD that has built the tables, the four physical encodings give, for each of the 2304 pairs, the state
that the transition function gives. -/
def Obligations.PhysicalEncodingsAgreeAfterBuild : Prop :=
  ∀ s, s.inst.err = .none → s.tblReady = false → ∃ t, exec .build s = .next t ∧ ∀ (X : DState) (b : Byte),
    (t.tables.readSb (code X) b).bind stateOf = some (delta X b) ∧
    (t.tables.readBs b (code X)).bind stateOf = some (delta X b) ∧
    (t.tables.readRow4 b).bind (fun row => stateOf (((row >>> (4 * (code X).toNat)) &&& 15).setWidth 4)) =
      some (delta X b) ∧
    (t.tables.readRow6p b).bind (fun row => stateOf ((((row >>> (6 * (code X).toNat)) &&& 63) / 6).setWidth 4)) =
      some (delta X b)

/-- R154, R191: the pre-multiplied row is six times the reference row; the plain step with `W = 6` on the reference row
gives the next state's code, and the pre-multiplied step's low six bits are six times that. -/
def Obligations.PlainAndPremultipliedFormsAgree : Prop :=
  ∀ (X : DState) (b : Byte),
    (buildRow6p b).toNat = 6 * (buildRow6n b).toNat ∧
    plainStep 6 (buildRow6n b) (code X) = zext64 (code (delta X b)) ∧
    premulStep (buildRow6p b) (6 * zext64 (code X)) &&& 63 = 6 * plainStep 6 (buildRow6n b) (code X)

/-- R59, R155, R254: once `TBL_READY = 1`, no step changes a table entry or clears the flag, but the step of an instance
that has no run in progress and whose host asserts RESET. -/
def Obligations.BuiltTablesNeverChange : Prop :=
  ∀ s u t : State, s.tblReady = true → s.takeTurn = .ok u → step s = .next t →
    (t.tables = s.tables ∧ t.tblReady = true) ∨ (u.inst.run = none ∧ u.inst.moves.head? = some .reset)

/-! ### Commands and faults (R201, R220 to R227) -/

/-- R201: the word `00000` is NOP, and NOP changes nothing, in any state. -/
def Obligations.NopChangesNothing : Prop := decodeCmd 0b00000 = some .nop ∧ ∀ s : State, exec .nop s = .next s

/-- R90, R221, R224, R226: each reserved word raises `IllegalCommand`, whatever else holds: `ERR` is 3, `DONE` is cleared
and nothing else changes. The first part names the constructors, the second the words. -/
def Obligations.ReservedWordRaisesIllegalCommand : Prop :=
  ErrCode.illegalCommand.bits = 3 ∧
  (∀ (i : Instr) (s : State), s.inst.err = .none →
    (i = .reserved01 ∨ (∃ w, i = .reserved02 w) ∨ (∃ w, i = .reserved04 w) ∨ i = .reserved09 ∨
      (∃ w, i = .reserved0A w) ∨ (∃ w, i = .reserved0C w) ∨ i = .reserved15 ∨ (∃ w, i = .reserved16 w) ∨
      (∃ w, i = .reserved18 w)) →
    exec i s = .next { s with inst := { s.inst with err := .illegalCommand, done := false } }) ∧
  ∀ (w : CmdWord) (s : State), w ∉ ([0x00, 0x08, 0x10, 0x11, 0x12, 0x13, 0x14] : List CmdWord) → s.inst.err = .none →
    ∃ i, decodeCmd w = some i ∧
      exec i s = .next { s with inst := { s.inst with err := .illegalCommand, done := false } }

/-- R227: while a fault is recorded every command word is ignored, and no step clears or replaces the fault but a step
whose host asserts RESET, and that one clears it. -/
def Obligations.OnlyResetClearsFault : Prop :=
  (∀ (i : Instr) (s : State), i.format = .cmd → s.inst.err ≠ .none → exec i s = .next s) ∧
  ∀ s u t : State, s.takeTurn = .ok u → u.inst.err ≠ .none → step s = .next t →
    t.inst.err = u.inst.err ∨ (u.inst.run = none ∧ u.inst.moves.head? = some .reset ∧ t.inst.err = .none)

/-- R225: the order of the fault tests. A word that is reserved records `IllegalCommand` before any other test; a VALIDATE
records `TablesNotBuilt` when the tables are not built, whatever `INIT` holds; `IllegalInitialState` is recorded when they
are built; and none is recorded when one is there already. -/
def Obligations.FirstFaultOfTheOrderIsRecorded : Prop :=
  ErrCode.tablesNotBuilt.bits = 1 ∧ ErrCode.illegalInitialState.bits = 2 ∧ ErrCode.illegalCommand.bits = 3 ∧
  ∀ s : State,
    (s.inst.err = .none → ∀ w i, decodeCmd w = some i →
      w ∉ ([0x00, 0x08, 0x10, 0x11, 0x12, 0x13, 0x14] : List CmdWord) →
      ∃ t, exec i s = .next t ∧ t.inst.err = .illegalCommand) ∧
    (s.inst.err = .none → s.tblReady = false →
      ∀ v, ∃ t, exec (validateInstr v) s = .next t ∧ t.inst.err = .tablesNotBuilt) ∧
    (s.inst.err = .none → s.tblReady = true → 8 < s.inst.init.toNat →
      ∀ v, ∃ t, exec (validateInstr v) s = .next t ∧ t.inst.err = .illegalInitialState) ∧
    (s.inst.err ≠ .none → ∀ w i, decodeCmd w = some i → ∃ t, exec i s = .next t ∧ t.inst.err = s.inst.err)

/-- R62, R202: with built tables, no fault and a legal `INIT`, a VALIDATE looks at nothing but its slice. When each index
below `LEN` holds a byte, the run begins with those bytes; when one holds none, the VALIDATE stops with the fault
`inputByteAbsent`, which is the model's choice (log entry 6). The operands are what `INIT` and `LEN` hold, whether or not
the host has written them since RESET (log entry 5). -/
def Obligations.ValidateBeginsExactlyOnSuppliedSlice : Prop :=
  ∀ (s : State) (v : Variant) (X : DState), s.inst.err = .none → s.tblReady = true → s.inst.init = code X →
    (∀ bytes : List Byte, bytes.length = s.inst.len → (∀ a, a < s.inst.len → s.inst.input.read a = bytes[a]?) →
      exec (validateInstr v) s = .next { s with inst := { s.inst with
        done := false, idx := 0
        s := if v.rawState then code X else s.inst.s
        off := if v.rawState then s.inst.off else 6 * zext64 (code X)
        run := some ⟨v, bytes⟩ } }) ∧
    (∀ a, a < s.inst.len → s.inst.input.read a = none → exec (validateInstr v) s = .fault .inputByteAbsent)

/-- R150, R201, R202, R206, R226: what a command leaves unchanged when it answers a next state, in any state whatever. A
command writes neither the operands nor the buffer nor `RESULT`; only BUILD writes the tables; only a VALIDATE writes the
carried registers, `IDX` and the run. -/
def Obligations.CommandFrame : Prop :=
  ∀ (i : Instr) (s t : State), i.format = .cmd → exec i s = .next t →
    t.inst.id = s.inst.id ∧ t.inst.init = s.inst.init ∧ t.inst.initSet = s.inst.initSet ∧ t.inst.len = s.inst.len ∧
    t.inst.lenSet = s.inst.lenSet ∧ t.inst.result = s.inst.result ∧ t.inst.moves = s.inst.moves ∧
    t.inst.readOut = s.inst.readOut ∧ t.params = s.params ∧ t.parked = s.parked ∧ t.turns = s.turns ∧
    (∀ a, t.inst.input.read a = s.inst.input.read a) ∧
    (i ≠ .build → t.tables = s.tables ∧ t.tblReady = s.tblReady) ∧
    ((∀ v, i ≠ validateInstr v) →
      t.inst.s = s.inst.s ∧ t.inst.off = s.inst.off ∧ t.inst.idx = s.inst.idx ∧ t.inst.run = s.inst.run) ∧
    (∀ v, i = validateInstr v → (v.rawState = true → t.inst.off = s.inst.off) ∧
      (v.rawState = false → t.inst.s = s.inst.s)) ∧
    (i = .build ∨ i = .nop → t.inst.done = s.inst.done ∧ t.inst.err = s.inst.err)

/-! ### The five VALIDATE commands (R170 to R192, R202, R203)

These statements hold whether or not the host has written `INIT` and `LEN` since RESET. That a VALIDATE runs on the reset
values of operands not written is the model's choice (log entry 5): R251 describes it as refused. -/

/-- R170: VALIDATE.DS, from its command word to the end of its run, on operands written since RESET or not (the model's
choice, log entry 5). -/
def Obligations.ValidateDsRunsToFinalState : Prop := FollowsValidateRule .ds 0b10000

/-- R171: VALIDATE.DB, from its command word to the end of its run, on operands written since RESET or not (the model's
choice, log entry 5). -/
def Obligations.ValidateDbRunsToFinalState : Prop := FollowsValidateRule .db 0b10001

/-- R181: VALIDATE.P4, from its command word to the end of its run, on operands written since RESET or not (the model's
choice, log entry 5). -/
def Obligations.ValidateP4RunsToFinalState : Prop := FollowsValidateRule .p4 0b10010

/-- R183, R188: VALIDATE.P6, from its command word to the end of its run, with all 64 bits of `OFF`, on operands written
since RESET or not (the model's choice, log entry 5). -/
def Obligations.ValidateP6RunsToFinalState : Prop := FollowsValidateRule .p6 0b10011

/-- R184, R189: VALIDATE.P6U, from its command word to the end of its run; its final `OFF` is the one R183 gives, bit for
bit, and its loop tests, eight bytes at a time and then byte by byte, let a byte be consumed exactly while one is left. The run
is on operands written since RESET or not (the model's choice, log entry 5). -/
def Obligations.ValidateP6uRunsToFinalState : Prop :=
  FollowsValidateRule .p6u 0b10100 ∧
  (∀ idx len, bytesRemain .p6u idx len = true ↔ idx < len) ∧
  ∀ idx len, idx % 8 = 0 → 8 ≤ len - idx → ∀ k, k < 8 → bytesRemain .p6u (idx + k) len = true

/-- R207: the five variants, run on one state, all end with the same `RESULT` and the same `STATUS`, the final state of
`delta*`, on operands written since RESET or not (the model's choice, log entry 5). -/
def Obligations.VariantsAgree : Prop :=
  ∀ (s : State) (X : DState) (bytes : List Byte) (v w : Variant), CanValidate s X bytes → s.turns = [] →
    ∃ t t' u u', exec (validateInstr v) s = .next t ∧ stepN (bytes.length + 1) t = .next t' ∧
      exec (validateInstr w) s = .next u ∧ stepN (bytes.length + 1) u = .next u' ∧
      t'.inst.result = code (deltaStar X bytes) ∧ u'.inst.result = t'.inst.result ∧ t'.inst.done = true ∧
      statusWord t' = statusWord u'

/-- R205, R207: a stream validated in two runs, of the same or of different variants, with `INIT <- RESULT` between them, ends
with the `RESULT` that R207 gives one run on the whole; the host makes the moves of R92 and R93, at any split, from any
initial state. That `INIT <- RESULT` is one move is the model's reading (log entry 17). -/
def Obligations.ChunkedRunsEqualOneRun : Prop :=
  ∀ (s : State) (X : DState) (u w : List Byte) (v v' : Variant) (rest : List HostMove), Idle s →
    Config.lenFits s.params u.length = true → Config.lenFits s.params w.length = true →
    s.inst.moves = validateMoves v X u ++
      [.carryResult, .writeLen w.length, .supply w, .writeCmd v'.cmdWord] ++ rest →
    ∃ t, stepN (u.length + w.length + 10) s = .next t ∧ t.inst.result = code (deltaStar X (u ++ w)) ∧
      t.inst.done = true ∧ t.inst.init = code (deltaStar X u) ∧ t.inst.err = .none ∧ t.inst.run = none ∧
      t.inst.moves = rest

/-- R93, R145, R146, R204: a host that runs any variant from `Ok` on a buffer and then reads `STATUS` finds `VALID` set
exactly when the buffer is in the grammar of RFC 3629 that R146 quotes. The grammar is from general knowledge (R146), so
the statement is derived. -/
def Obligations.ValidExactlyWhenRfcGrammar : Prop :=
  ∀ (s : State) (bytes : List Byte) (v : Variant) (rest : List HostMove), Idle s →
    Config.lenFits s.params bytes.length = true → s.inst.moves = isValidMoves v bytes ++ rest →
    ∃ t n, stepN (bytes.length + 6) s = .next t ∧ t.inst.readOut = some (.status, n) ∧ t.inst.moves = rest ∧
      (n.testBit 4 = true ↔ Utf8Octets bytes)

/-! ### Host registers and status (R25 to R29, R204, R250) -/

/-- R28: the fields of the `STATUS` word, and the two combinational fields, which are never both 1. -/
def Obligations.StatusWordHoldsItsFields : Prop :=
  ∀ s : State,
    (statusWord s).getLsbD 0 = s.tblReady ∧ (statusWord s).getLsbD 1 = s.inst.done ∧
    (statusWord s).extractLsb' 2 2 = s.inst.err.bits ∧
    ((statusWord s).getLsbD 4 = true ↔ s.inst.done = true ∧ s.inst.result = code .ok) ∧
    ((statusWord s).getLsbD 5 = true ↔ s.inst.done = true ∧ s.inst.result = code .fail) ∧
    ¬ ((statusWord s).getLsbD 4 = true ∧ (statusWord s).getLsbD 5 = true)

/-- R204, R211: a finished run is read in exactly one of three ways, and an incomplete one owes at least one byte. -/
def Obligations.FinishedRunHasOneOfThreeOutcomes : Prop :=
  ∀ (s : State) (X : DState), s.inst.done = true → s.inst.result = code X →
    (verdict X = .valid ↔ s.inst.valid = true ∧ s.inst.failed = false) ∧
    (verdict X = .invalid ↔ s.inst.valid = false ∧ s.inst.failed = true) ∧
    (verdict X = .incomplete ↔ s.inst.valid = false ∧ s.inst.failed = false) ∧
    (verdict X = .incomplete ↔ 0 < bytesOwed X)

/-- R25 to R29: what a host read of each control register returns, or that it is refused: of `CMD`, which is write-only, and
of `RESULT` while `DONE = 0`. A read of `INIT` or `LEN` returns what the register holds, written since RESET or not
(the model's choice, log entry 5). -/
def Obligations.HostReadsOfControlRegisters : Prop :=
  ∀ (s t : State) (r : CReg) (ms : List HostMove), s.takeTurn = .ok t → t.inst.run = none → t.inst.moves = .read r :: ms →
    (r = .cmd → step s = .refused .cmdIsWriteOnly) ∧
    (r = .status → step s = .next { t with inst :=
      { t.inst with moves := ms, readOut := some (.status, (statusWord t).toNat) } }) ∧
    (r = .result → t.inst.done = true → step s = .next { t with inst :=
      { t.inst with moves := ms, readOut := some (.result, t.inst.result.toNat) } }) ∧
    (r = .result → t.inst.done = false → step s = .refused .resultHasNoValue) ∧
    (r = .init → step s = .next { t with inst :=
      { t.inst with moves := ms, readOut := some (.init, t.inst.init.toNat) } }) ∧
    (r = .len → step s = .next { t with inst :=
      { t.inst with moves := ms, readOut := some (.len, t.inst.len) } })

/-- R25, R26, R28, R29, R93: what a host write of each control register stores, or that it is refused. The last two clauses
are `INIT <- RESULT`: `INIT` takes `RESULT`, which is what the host has read, and while `DONE = 0` the move is refused,
`RESULT` having no value. The model's choices are that a length above `IDXW` bits is refused (log entry 16: R25 only says
which values are legal) and that `INIT <- RESULT` is one move (log entry 17). -/
def Obligations.HostWritesOfControlRegisters : Prop :=
  ∀ (s t : State) (m : HostMove) (ms : List HostMove), s.takeTurn = .ok t → t.inst.run = none → t.inst.moves = m :: ms →
    (∀ c, m = .writeInit c → step s = .next { t with inst :=
      { t.inst with moves := ms, init := c, initSet := true } }) ∧
    (∀ n, m = .writeLen n → (∀ k, t.params.idxWidth = some k → n < 2 ^ k) → step s = .next { t with inst :=
      { t.inst with moves := ms, len := n, lenSet := true } }) ∧
    (∀ n k, m = .writeLen n → t.params.idxWidth = some k → 2 ^ k ≤ n → step s = .refused .lenNotRepresentable) ∧
    (∀ v, m = .writeStatus v → step s = .refused (.registerIsReadOnly .status)) ∧
    (∀ v, m = .writeResult v → step s = .refused (.registerIsReadOnly .result)) ∧
    (m = .carryResult → t.inst.done = true → step s = .next { t with inst := { t.inst with
      moves := ms, init := t.inst.result, initSet := true, readOut := some (.result, t.inst.result.toNat) } }) ∧
    (m = .carryResult → t.inst.done = false → step s = .refused .resultHasNoValue)

/-- R50, R51, R62: the host's two ways to fill its buffer. After a supply, index `a` holds byte `a` of the buffer and no other
index holds a byte; after a put, the index named holds the byte and every other index what it held. Nothing else
changes. -/
def Obligations.HostFillsItsBuffer : Prop :=
  ∀ (s t : State) (m : HostMove) (ms : List HostMove), s.takeTurn = .ok t → t.inst.run = none → t.inst.moves = m :: ms →
    (∀ bytes, m = .supply bytes → ∃ M, step s = .next { t with inst := { t.inst with moves := ms, input := M } } ∧
      ∀ a, M.read a = bytes[a]?) ∧
    (∀ i b, m = .putByte i b → ∃ M, step s = .next { t with inst := { t.inst with moves := ms, input := M } } ∧
      ∀ a, M.read a = if a = i then some b else t.inst.input.read a)

/-- R38, R250: the reset state: `STATUS` reads zero, every field of it is 0, no table entry holds a value, the host has
written neither `INIT` nor `LEN`, and no run is in progress. (The numbers stored in `INIT`, `LEN`, `S`, `OFF`, `IDX` and `RESULT` are
the model's choice, log entry 1; the statement rests on none of them.) -/
def Obligations.ResetStateHoldsSpecValues : Prop :=
  statusWord State.reset = 0 ∧ State.reset.tblReady = false ∧ State.reset.inst.done = false ∧
  State.reset.inst.err = .none ∧ State.reset.inst.valid = false ∧ State.reset.inst.failed = false ∧
  State.reset.inst.initSet = false ∧ State.reset.inst.lenSet = false ∧ State.reset.inst.run = none ∧
  State.reset.params.autoBuild = false ∧ State.reset.params.idxWidth = none ∧ State.reset.parked = [] ∧
  ∀ c b, State.reset.tables.readSb c b = none ∧ State.reset.tables.readBs b c = none ∧
    State.reset.tables.readRow4 b = none ∧ State.reset.tables.readRow6p b = none

/-- R38, R233, R250: the RESET input, from any state in which no other instance is inside a command: every instance loses
its fault and its result, its operands count as not written, and the tables are built or hold no value as `AUTO_BUILD`
says. What is the host's (buffers, moves, turns) stays, which is the model's reading (log entry 7). -/
def Obligations.ResetMoveResetsWholeBlock : Prop :=
  ∀ (s t : State) (ms : List HostMove), s.takeTurn = .ok t → t.inst.run = none → t.inst.moves = .reset :: ms →
    (∀ i ∈ t.parked, i.run = none) →
    ∃ u, step s = .next u ∧ u.tblReady = t.params.autoBuild ∧
      u.tables = (if t.params.autoBuild then Tables.built else Tables.empty) ∧ u.params = t.params ∧
      u.turns = t.turns ∧ (u.inst :: u.parked).map Inst.id = (t.inst :: t.parked).map Inst.id ∧
      u.inst.moves = ms ∧ u.parked.map Inst.moves = t.parked.map Inst.moves ∧
      (u.inst :: u.parked).map Inst.input = (t.inst :: t.parked).map Inst.input ∧
      ∀ i ∈ u.inst :: u.parked, i.err = .none ∧ i.done = false ∧ i.initSet = false ∧ i.lenSet = false ∧ i.run = none

/-- R250, R251: the boot order. From any state of an instance with no run and no turn left, whatever fault it has recorded,
beside instances that are inside no command, a host that asserts RESET, issues BUILD, writes its operands, supplies the
slice and issues a VALIDATE of any variant ends with the final state in `RESULT`, both operands written and no fault, with
`AUTO_BUILD` or without. -/
def Obligations.BootOrderReachesResult : Prop :=
  ∀ (s : State) (X : DState) (bytes : List Byte) (v : Variant) (rest : List HostMove), s.turns = [] → s.inst.run = none →
    (∀ i ∈ s.parked, i.run = none) → Config.lenFits s.params bytes.length = true →
    s.inst.moves = [.reset] ++ buildMoves ++ validateMoves v X bytes ++ rest →
    ∃ t, stepN (bytes.length + 7) s = .next t ∧ t.inst.result = code (deltaStar X bytes) ∧ t.inst.done = true ∧
      t.inst.err = .none ∧ t.tblReady = true ∧ t.inst.initSet = true ∧ t.inst.lenSet = true ∧ t.inst.moves = rest

/-- R208, R250: the host has no RESET move inside a command: with another instance's run in progress it is refused (log
entry 15). -/
def Obligations.ResetInsideAnotherCommandIsRefused : Prop :=
  ∀ (s t : State) (ms : List HostMove) (i : Inst) (r : Run), s.takeTurn = .ok t → t.inst.run = none →
    t.inst.moves = .reset :: ms → i ∈ t.parked → i.run = some r → step s = .refused .resetDuringCommand

/-! ### Whole-machine properties (R35, R56, R186, R206, R209, R220, R233) -/

/-- R28, R35, R38: the invariant holds at reset. -/
def Obligations.InvariantHoldsAtReset : Prop := Inv State.reset

/-- R24, R28, R35, R59, R62, R172, R186, R187: every step keeps the invariant of the block, from every state that meets
it. -/
def Obligations.StepKeepsInvariant : Prop :=
  ∀ s t : State, Inv s → step s = .next t → Inv t

/-- R56, R220: from every state that meets the invariant, the step of an instance with a run in progress answers a next
state: no byte, in any carried state and any variant, faults or is refused, and the epilogue does not either. -/
def Obligations.RunInProgressNeverStops : Prop :=
  ∀ (s u : State) (r : Run), Inv s → s.takeTurn = .ok u → u.inst.run = some r → ∃ t, step s = .next t

/-- R209: from every state that meets the invariant, a run in progress ends after one step for each byte left and one
more, with the final state of `delta*` over its whole slice in `RESULT`, begun on operands written since RESET or not (the
model's choice, log entry 5). -/
def Obligations.RunInProgressCompletes : Prop :=
  ∀ (s : State) (r : Run) (X : DState), Inv s → s.turns = [] → s.inst.run = some r → s.inst.init = code X →
    ∃ t, stepN (r.slice.length - s.inst.idx + 1) s = .next t ∧ t.inst.run = none ∧ t.inst.done = true ∧
      t.inst.idx = r.slice.length ∧ t.inst.result = code (deltaStar X r.slice)

/-- R206, R233: a step writes no instance but the acting one, unless that one has no run in progress and its host asserts
RESET. -/
def Obligations.StepWritesOnlyActingInstance : Prop :=
  ∀ s u t : State, s.takeTurn = .ok u → step s = .next t →
    (t.parked = u.parked ∧ t.inst.id = u.inst.id) ∨ (u.inst.run = none ∧ u.inst.moves.head? = some .reset)

/-- R206, R233: what the acting instance does depends on nothing of the other instances: two blocks that differ only in
their other instances do the same, provided that none of them is inside a command where the acting host, with no run in
progress, asserts RESET. -/
def Obligations.ActingInstanceLearnsNothingOfOthers : Prop :=
  ∀ (s : State) (others : List Inst) (t : State), s.turns = [] →
    (s.inst.run = none → s.inst.moves.head? = some .reset → ∀ i ∈ others, i.run = none) → step s = .next t →
    ∃ u, step { s with parked := others } = .next u ∧ u.inst = t.inst ∧ u.tables = t.tables ∧ u.tblReady = t.tblReady ∧
      u.params = t.params ∧ u.turns = t.turns
end

