-- ==== Sys2Proof/Laws/Decode.lean ====
section
/-! SUPPORT. What a decoded word is: its encoding is the word it was decoded from. -/

namespace Sys2Proof.Laws

/-- Every byte decodes, and to an instruction whose word it is. -/
theorem decodeByte_encode : ∀ b : Byte, (decodeByte b).map encode = some (.byte b) := by
  decide +kernel

/-- Every command word decodes, and to an instruction whose word it is. -/
theorem decodeCmd_encode : ∀ w : CmdWord, (decodeCmd w).map encode = some (.cmd w) := by
  decide +kernel

theorem decodeByte_total (b : Byte) : ∃ i, decodeByte b = some i ∧ encode i = .byte b := by
  simpa [Option.map_eq_some_iff] using decodeByte_encode b

theorem decodeCmd_total (w : CmdWord) : ∃ i, decodeCmd w = some i ∧ encode i = .cmd w := by
  simpa [Option.map_eq_some_iff] using decodeCmd_encode w

theorem encode_of_decodeByte {b : Byte} {i : Instr} (h : decodeByte b = some i) : encode i = .byte b := by
  obtain ⟨j, hj, he⟩ := decodeByte_total b
  rw [h] at hj
  cases hj
  exact he

theorem encode_of_decodeCmd {w : CmdWord} {i : Instr} (h : decodeCmd w = some i) : encode i = .cmd w := by
  obtain ⟨j, hj, he⟩ := decodeCmd_total w
  rw [h] at hj
  cases hj
  exact he

end Sys2Proof.Laws
end

