-- ==== Sys2Proof/Laws/Memory.lean ====
section
/-! SUPPORT. The laws of the input space: what a read sees after a write, and that every operation keeps the canonical form. -/

namespace Sys2Proof.Machine

theorem Memory.read_write_same (m : Memory) (i : Nat) (v : Byte) : (m.write i v).read i = some v := by
  induction m with
  | nil => simp [Memory.write, Memory.read]
  | cons c m ih =>
    obtain ⟨a, b⟩ := c
    simp only [Memory.write]
    split
    · simp [Memory.read]
    · split
      · simp [Memory.read]
      · rename_i h
        simp [Memory.read, Ne.symm h, ih]

theorem Memory.read_write_other (m : Memory) (i j : Nat) (v : Byte) (h : i ≠ j) :
    (m.write i v).read j = m.read j := by
  induction m with
  | nil => simp [Memory.write, Memory.read, h]
  | cons c m ih =>
    obtain ⟨a, b⟩ := c
    simp only [Memory.write]
    split
    · simp [Memory.read, h]
    · split
      · rename_i _ hia
        subst hia
        simp [Memory.read, h]
      · simp [Memory.read, ih]

theorem Memory.risesFrom_mono (m : Memory) (lo hi : Nat) (hle : lo ≤ hi) (h : m.risesFrom hi = true) :
    m.risesFrom lo = true := by
  cases m with
  | nil => rfl
  | cons c m =>
    simp only [Memory.risesFrom, Bool.and_eq_true, decide_eq_true_eq] at h ⊢
    exact ⟨hle.trans h.1, h.2⟩

theorem Memory.risesFrom_write (m : Memory) (lo i : Nat) (v : Byte) (hlo : lo ≤ i) (h : m.risesFrom lo = true) :
    (m.write i v).risesFrom lo = true := by
  induction m generalizing lo with
  | nil => simpa [Memory.write, Memory.risesFrom] using hlo
  | cons c m ih =>
    obtain ⟨a, b⟩ := c
    simp only [Memory.risesFrom, Bool.and_eq_true, decide_eq_true_eq] at h
    simp only [Memory.write]
    split
    · rename_i hia
      simp only [Memory.risesFrom, Bool.and_eq_true, decide_eq_true_eq]
      exact ⟨hlo, hia, h.2⟩
    · split
      · rename_i hia
        subst hia
        simp only [Memory.risesFrom, Bool.and_eq_true, decide_eq_true_eq]
        exact ⟨hlo, h.2⟩
      · simp only [Memory.risesFrom, Bool.and_eq_true, decide_eq_true_eq]
        exact ⟨h.1, ih (a + 1) (by omega) h.2⟩

theorem Memory.wf_write (m : Memory) (i : Nat) (v : Byte) (h : m.wf = true) : (m.write i v).wf = true :=
  Memory.risesFrom_write m 0 i v (Nat.zero_le i) h

theorem Memory.risesFrom_ofBytesAt (bs : List Byte) (i : Nat) : (Memory.ofBytesAt i bs).risesFrom i = true := by
  induction bs generalizing i with
  | nil => rfl
  | cons b bs ih => simp [Memory.ofBytesAt, Memory.risesFrom, ih]

theorem Memory.wf_ofBytesAt (bs : List Byte) (i : Nat) : (Memory.ofBytesAt i bs).wf = true :=
  Memory.risesFrom_mono _ 0 i (Nat.zero_le i) (Memory.risesFrom_ofBytesAt bs i)

/-- A space whose addresses all lie above an index holds no byte there. -/
theorem Memory.read_below (m : Memory) (lo i : Nat) (hi : i < lo) (h : m.risesFrom lo = true) : m.read i = none := by
  induction m generalizing lo with
  | nil => rfl
  | cons c m ih =>
    obtain ⟨a, b⟩ := c
    simp only [Memory.risesFrom, Bool.and_eq_true, decide_eq_true_eq] at h
    have hne : a ≠ i := by omega
    simp [Memory.read, hne, ih (a + 1) (by omega) h.2]

theorem Memory.read_ofBytesAt (bs : List Byte) (i j : Nat) : (Memory.ofBytesAt i bs).read (i + j) = bs[j]? := by
  induction bs generalizing i j with
  | nil => rfl
  | cons b bs ih =>
    cases j with
    | zero => simp [Memory.ofBytesAt, Memory.read]
    | succ j =>
      have h := ih (i + 1) j
      rw [show i + 1 + j = i + (j + 1) by omega] at h
      simp [Memory.ofBytesAt, Memory.read, h]

/-- What a slice says of each of its bytes. -/
theorem Memory.sliceAt_spec (m : Memory) (i n : Nat) (bs : List Byte) (h : m.sliceAt i n = some bs) :
    bs.length = n ∧ ∀ k, k < n → m.read (i + k) = bs[k]? := by
  induction n generalizing i bs with
  | zero =>
    simp only [Memory.sliceAt, Option.some.injEq] at h
    subst h
    exact ⟨rfl, fun k hk => absurd hk (Nat.not_lt_zero k)⟩
  | succ n ih =>
    simp only [Memory.sliceAt] at h
    split at h
    · rename_i b bs' hb hbs
      cases h
      obtain ⟨hl, hr⟩ := ih (i + 1) bs' hbs
      refine ⟨by simp [hl], fun k hk => ?_⟩
      cases k with
      | zero => simpa using hb
      | succ k => simpa [show i + (k + 1) = i + 1 + k by omega] using hr k (by omega)
    · cases h

/-- Where every byte is there, the slice is there. -/
theorem Memory.sliceAt_of_reads (m : Memory) (i : Nat) (bs : List Byte)
    (h : ∀ k, k < bs.length → m.read (i + k) = bs[k]?) : m.sliceAt i bs.length = some bs := by
  induction bs generalizing i with
  | nil => rfl
  | cons b bs ih =>
    have h0 : m.read i = some b := by simpa using h 0 (by simp)
    have hs : m.sliceAt (i + 1) bs.length = some bs :=
      ih (i + 1) fun k hk => by
        simpa [show i + (k + 1) = i + 1 + k by omega] using h (k + 1) (by simpa using hk)
    simp [Memory.sliceAt, h0, hs]

theorem Memory.sliceAt_ofBytesAt (bs : List Byte) (i : Nat) :
    (Memory.ofBytesAt i bs).sliceAt i bs.length = some bs :=
  Memory.sliceAt_of_reads _ i bs fun k _ => Memory.read_ofBytesAt bs i k

/-- The snapshot of a supplied buffer of `LEN` bytes is that buffer. -/
theorem snapshot_of_supplied (i : Inst) (bs : List Byte) (hin : i.input = Memory.ofBytesAt 0 bs)
    (hlen : i.len = bs.length) : snapshot i = some bs := by
  simpa [snapshot, hin, hlen] using Memory.sliceAt_ofBytesAt bs 0

/-- A slice that reaches an index at which no byte was supplied is none. -/
theorem Memory.sliceAt_none (m : Memory) (i n k : Nat) (hk : k < n) (h : m.read (i + k) = none) :
    m.sliceAt i n = none := by
  cases hs : m.sliceAt i n with
  | none => rfl
  | some bs =>
    obtain ⟨hl, hr⟩ := Memory.sliceAt_spec m i n bs hs
    have hb := hr k hk
    rw [h] at hb
    simp at hb
    omega

/-- The memory of the reset state is in canonical form. -/
theorem Memory.wf_reset : State.reset.inst.input.wf = true := rfl

end Sys2Proof.Machine
end

