-- ==== Sys2Proof/Laws/State.lean ====
section
/-! SUPPORT. One lemma per field and update of the state, so that no proof unfolds a record update. -/

namespace Sys2Proof.Machine

variable (st : State)

/-! ### stepS -/

@[simp] theorem State.stepS_params (n : Code) : (st.stepS n).params = st.params := rfl
@[simp] theorem State.stepS_tables (n : Code) : (st.stepS n).tables = st.tables := rfl
@[simp] theorem State.stepS_tblReady (n : Code) : (st.stepS n).tblReady = st.tblReady := rfl
@[simp] theorem State.stepS_parked (n : Code) : (st.stepS n).parked = st.parked := rfl
@[simp] theorem State.stepS_turns (n : Code) : (st.stepS n).turns = st.turns := rfl
@[simp] theorem State.stepS_id (n : Code) : (st.stepS n).inst.id = st.inst.id := rfl
@[simp] theorem State.stepS_init (n : Code) : (st.stepS n).inst.init = st.inst.init := rfl
@[simp] theorem State.stepS_initSet (n : Code) : (st.stepS n).inst.initSet = st.inst.initSet := rfl
@[simp] theorem State.stepS_len (n : Code) : (st.stepS n).inst.len = st.inst.len := rfl
@[simp] theorem State.stepS_lenSet (n : Code) : (st.stepS n).inst.lenSet = st.inst.lenSet := rfl
@[simp] theorem State.stepS_s (n : Code) : (st.stepS n).inst.s = n := rfl
@[simp] theorem State.stepS_off (n : Code) : (st.stepS n).inst.off = st.inst.off := rfl
@[simp] theorem State.stepS_idx (n : Code) : (st.stepS n).inst.idx = st.inst.idx + 1 := rfl
@[simp] theorem State.stepS_done (n : Code) : (st.stepS n).inst.done = st.inst.done := rfl
@[simp] theorem State.stepS_err (n : Code) : (st.stepS n).inst.err = st.inst.err := rfl
@[simp] theorem State.stepS_result (n : Code) : (st.stepS n).inst.result = st.inst.result := rfl
@[simp] theorem State.stepS_run (n : Code) : (st.stepS n).inst.run = st.inst.run := rfl
@[simp] theorem State.stepS_input (n : Code) : (st.stepS n).inst.input = st.inst.input := rfl
@[simp] theorem State.stepS_moves (n : Code) : (st.stepS n).inst.moves = st.inst.moves := rfl
@[simp] theorem State.stepS_readOut (n : Code) : (st.stepS n).inst.readOut = st.inst.readOut := rfl

/-! ### stepOff -/

@[simp] theorem State.stepOff_params (o : Row) : (st.stepOff o).params = st.params := rfl
@[simp] theorem State.stepOff_tables (o : Row) : (st.stepOff o).tables = st.tables := rfl
@[simp] theorem State.stepOff_tblReady (o : Row) : (st.stepOff o).tblReady = st.tblReady := rfl
@[simp] theorem State.stepOff_parked (o : Row) : (st.stepOff o).parked = st.parked := rfl
@[simp] theorem State.stepOff_turns (o : Row) : (st.stepOff o).turns = st.turns := rfl
@[simp] theorem State.stepOff_id (o : Row) : (st.stepOff o).inst.id = st.inst.id := rfl
@[simp] theorem State.stepOff_init (o : Row) : (st.stepOff o).inst.init = st.inst.init := rfl
@[simp] theorem State.stepOff_initSet (o : Row) : (st.stepOff o).inst.initSet = st.inst.initSet := rfl
@[simp] theorem State.stepOff_len (o : Row) : (st.stepOff o).inst.len = st.inst.len := rfl
@[simp] theorem State.stepOff_lenSet (o : Row) : (st.stepOff o).inst.lenSet = st.inst.lenSet := rfl
@[simp] theorem State.stepOff_s (o : Row) : (st.stepOff o).inst.s = st.inst.s := rfl
@[simp] theorem State.stepOff_off (o : Row) : (st.stepOff o).inst.off = o := rfl
@[simp] theorem State.stepOff_idx (o : Row) : (st.stepOff o).inst.idx = st.inst.idx + 1 := rfl
@[simp] theorem State.stepOff_done (o : Row) : (st.stepOff o).inst.done = st.inst.done := rfl
@[simp] theorem State.stepOff_err (o : Row) : (st.stepOff o).inst.err = st.inst.err := rfl
@[simp] theorem State.stepOff_result (o : Row) : (st.stepOff o).inst.result = st.inst.result := rfl
@[simp] theorem State.stepOff_run (o : Row) : (st.stepOff o).inst.run = st.inst.run := rfl
@[simp] theorem State.stepOff_input (o : Row) : (st.stepOff o).inst.input = st.inst.input := rfl
@[simp] theorem State.stepOff_moves (o : Row) : (st.stepOff o).inst.moves = st.inst.moves := rfl
@[simp] theorem State.stepOff_readOut (o : Row) : (st.stepOff o).inst.readOut = st.inst.readOut := rfl

/-! ### raise -/

@[simp] theorem State.raise_params (e : ErrCode) : (st.raise e).params = st.params := rfl
@[simp] theorem State.raise_tables (e : ErrCode) : (st.raise e).tables = st.tables := rfl
@[simp] theorem State.raise_tblReady (e : ErrCode) : (st.raise e).tblReady = st.tblReady := rfl
@[simp] theorem State.raise_parked (e : ErrCode) : (st.raise e).parked = st.parked := rfl
@[simp] theorem State.raise_turns (e : ErrCode) : (st.raise e).turns = st.turns := rfl
@[simp] theorem State.raise_id (e : ErrCode) : (st.raise e).inst.id = st.inst.id := rfl
@[simp] theorem State.raise_init (e : ErrCode) : (st.raise e).inst.init = st.inst.init := rfl
@[simp] theorem State.raise_initSet (e : ErrCode) : (st.raise e).inst.initSet = st.inst.initSet := rfl
@[simp] theorem State.raise_len (e : ErrCode) : (st.raise e).inst.len = st.inst.len := rfl
@[simp] theorem State.raise_lenSet (e : ErrCode) : (st.raise e).inst.lenSet = st.inst.lenSet := rfl
@[simp] theorem State.raise_s (e : ErrCode) : (st.raise e).inst.s = st.inst.s := rfl
@[simp] theorem State.raise_off (e : ErrCode) : (st.raise e).inst.off = st.inst.off := rfl
@[simp] theorem State.raise_idx (e : ErrCode) : (st.raise e).inst.idx = st.inst.idx := rfl
@[simp] theorem State.raise_done (e : ErrCode) : (st.raise e).inst.done = false := rfl
@[simp] theorem State.raise_err (e : ErrCode) : (st.raise e).inst.err = e := rfl
@[simp] theorem State.raise_result (e : ErrCode) : (st.raise e).inst.result = st.inst.result := rfl
@[simp] theorem State.raise_run (e : ErrCode) : (st.raise e).inst.run = st.inst.run := rfl
@[simp] theorem State.raise_input (e : ErrCode) : (st.raise e).inst.input = st.inst.input := rfl
@[simp] theorem State.raise_moves (e : ErrCode) : (st.raise e).inst.moves = st.inst.moves := rfl
@[simp] theorem State.raise_readOut (e : ErrCode) : (st.raise e).inst.readOut = st.inst.readOut := rfl

/-! ### installTables -/

@[simp] theorem State.installTables_params : st.installTables.params = st.params := rfl
@[simp] theorem State.installTables_tables : st.installTables.tables = Tables.built := rfl
@[simp] theorem State.installTables_tblReady : st.installTables.tblReady = true := rfl
@[simp] theorem State.installTables_parked : st.installTables.parked = st.parked := rfl
@[simp] theorem State.installTables_turns : st.installTables.turns = st.turns := rfl
@[simp] theorem State.installTables_id : st.installTables.inst.id = st.inst.id := rfl
@[simp] theorem State.installTables_init : st.installTables.inst.init = st.inst.init := rfl
@[simp] theorem State.installTables_initSet : st.installTables.inst.initSet = st.inst.initSet := rfl
@[simp] theorem State.installTables_len : st.installTables.inst.len = st.inst.len := rfl
@[simp] theorem State.installTables_lenSet : st.installTables.inst.lenSet = st.inst.lenSet := rfl
@[simp] theorem State.installTables_s : st.installTables.inst.s = st.inst.s := rfl
@[simp] theorem State.installTables_off : st.installTables.inst.off = st.inst.off := rfl
@[simp] theorem State.installTables_idx : st.installTables.inst.idx = st.inst.idx := rfl
@[simp] theorem State.installTables_done : st.installTables.inst.done = st.inst.done := rfl
@[simp] theorem State.installTables_err : st.installTables.inst.err = st.inst.err := rfl
@[simp] theorem State.installTables_result : st.installTables.inst.result = st.inst.result := rfl
@[simp] theorem State.installTables_run : st.installTables.inst.run = st.inst.run := rfl
@[simp] theorem State.installTables_input : st.installTables.inst.input = st.inst.input := rfl
@[simp] theorem State.installTables_moves : st.installTables.inst.moves = st.inst.moves := rfl
@[simp] theorem State.installTables_readOut : st.installTables.inst.readOut = st.inst.readOut := rfl

/-! ### finishRun -/

@[simp] theorem State.finishRun_params (v : Variant) : (st.finishRun v).params = st.params := rfl
@[simp] theorem State.finishRun_tables (v : Variant) : (st.finishRun v).tables = st.tables := rfl
@[simp] theorem State.finishRun_tblReady (v : Variant) : (st.finishRun v).tblReady = st.tblReady := rfl
@[simp] theorem State.finishRun_parked (v : Variant) : (st.finishRun v).parked = st.parked := rfl
@[simp] theorem State.finishRun_turns (v : Variant) : (st.finishRun v).turns = st.turns := rfl
@[simp] theorem State.finishRun_id (v : Variant) : (st.finishRun v).inst.id = st.inst.id := rfl
@[simp] theorem State.finishRun_init (v : Variant) : (st.finishRun v).inst.init = st.inst.init := rfl
@[simp] theorem State.finishRun_initSet (v : Variant) : (st.finishRun v).inst.initSet = st.inst.initSet := rfl
@[simp] theorem State.finishRun_len (v : Variant) : (st.finishRun v).inst.len = st.inst.len := rfl
@[simp] theorem State.finishRun_lenSet (v : Variant) : (st.finishRun v).inst.lenSet = st.inst.lenSet := rfl
@[simp] theorem State.finishRun_s (v : Variant) : (st.finishRun v).inst.s = st.inst.s := rfl
@[simp] theorem State.finishRun_off (v : Variant) : (st.finishRun v).inst.off = st.inst.off := rfl
@[simp] theorem State.finishRun_idx (v : Variant) : (st.finishRun v).inst.idx = st.inst.idx := rfl
@[simp] theorem State.finishRun_done (v : Variant) : (st.finishRun v).inst.done = true := rfl
@[simp] theorem State.finishRun_err (v : Variant) : (st.finishRun v).inst.err = st.inst.err := rfl
@[simp] theorem State.finishRun_result (v : Variant) : (st.finishRun v).inst.result = finalCode v st.inst := rfl
@[simp] theorem State.finishRun_run (v : Variant) : (st.finishRun v).inst.run = none := rfl
@[simp] theorem State.finishRun_input (v : Variant) : (st.finishRun v).inst.input = st.inst.input := rfl
@[simp] theorem State.finishRun_moves (v : Variant) : (st.finishRun v).inst.moves = st.inst.moves := rfl
@[simp] theorem State.finishRun_readOut (v : Variant) : (st.finishRun v).inst.readOut = st.inst.readOut := rfl

/-! ### setInit -/

@[simp] theorem State.setInit_params (c : Code) : (st.setInit c).params = st.params := rfl
@[simp] theorem State.setInit_tables (c : Code) : (st.setInit c).tables = st.tables := rfl
@[simp] theorem State.setInit_tblReady (c : Code) : (st.setInit c).tblReady = st.tblReady := rfl
@[simp] theorem State.setInit_parked (c : Code) : (st.setInit c).parked = st.parked := rfl
@[simp] theorem State.setInit_turns (c : Code) : (st.setInit c).turns = st.turns := rfl
@[simp] theorem State.setInit_id (c : Code) : (st.setInit c).inst.id = st.inst.id := rfl
@[simp] theorem State.setInit_init (c : Code) : (st.setInit c).inst.init = c := rfl
@[simp] theorem State.setInit_initSet (c : Code) : (st.setInit c).inst.initSet = true := rfl
@[simp] theorem State.setInit_len (c : Code) : (st.setInit c).inst.len = st.inst.len := rfl
@[simp] theorem State.setInit_lenSet (c : Code) : (st.setInit c).inst.lenSet = st.inst.lenSet := rfl
@[simp] theorem State.setInit_s (c : Code) : (st.setInit c).inst.s = st.inst.s := rfl
@[simp] theorem State.setInit_off (c : Code) : (st.setInit c).inst.off = st.inst.off := rfl
@[simp] theorem State.setInit_idx (c : Code) : (st.setInit c).inst.idx = st.inst.idx := rfl
@[simp] theorem State.setInit_done (c : Code) : (st.setInit c).inst.done = st.inst.done := rfl
@[simp] theorem State.setInit_err (c : Code) : (st.setInit c).inst.err = st.inst.err := rfl
@[simp] theorem State.setInit_result (c : Code) : (st.setInit c).inst.result = st.inst.result := rfl
@[simp] theorem State.setInit_run (c : Code) : (st.setInit c).inst.run = st.inst.run := rfl
@[simp] theorem State.setInit_input (c : Code) : (st.setInit c).inst.input = st.inst.input := rfl
@[simp] theorem State.setInit_moves (c : Code) : (st.setInit c).inst.moves = st.inst.moves := rfl
@[simp] theorem State.setInit_readOut (c : Code) : (st.setInit c).inst.readOut = st.inst.readOut := rfl

/-! ### setLen -/

@[simp] theorem State.setLen_params (n : Nat) : (st.setLen n).params = st.params := rfl
@[simp] theorem State.setLen_tables (n : Nat) : (st.setLen n).tables = st.tables := rfl
@[simp] theorem State.setLen_tblReady (n : Nat) : (st.setLen n).tblReady = st.tblReady := rfl
@[simp] theorem State.setLen_parked (n : Nat) : (st.setLen n).parked = st.parked := rfl
@[simp] theorem State.setLen_turns (n : Nat) : (st.setLen n).turns = st.turns := rfl
@[simp] theorem State.setLen_id (n : Nat) : (st.setLen n).inst.id = st.inst.id := rfl
@[simp] theorem State.setLen_init (n : Nat) : (st.setLen n).inst.init = st.inst.init := rfl
@[simp] theorem State.setLen_initSet (n : Nat) : (st.setLen n).inst.initSet = st.inst.initSet := rfl
@[simp] theorem State.setLen_len (n : Nat) : (st.setLen n).inst.len = n := rfl
@[simp] theorem State.setLen_lenSet (n : Nat) : (st.setLen n).inst.lenSet = true := rfl
@[simp] theorem State.setLen_s (n : Nat) : (st.setLen n).inst.s = st.inst.s := rfl
@[simp] theorem State.setLen_off (n : Nat) : (st.setLen n).inst.off = st.inst.off := rfl
@[simp] theorem State.setLen_idx (n : Nat) : (st.setLen n).inst.idx = st.inst.idx := rfl
@[simp] theorem State.setLen_done (n : Nat) : (st.setLen n).inst.done = st.inst.done := rfl
@[simp] theorem State.setLen_err (n : Nat) : (st.setLen n).inst.err = st.inst.err := rfl
@[simp] theorem State.setLen_result (n : Nat) : (st.setLen n).inst.result = st.inst.result := rfl
@[simp] theorem State.setLen_run (n : Nat) : (st.setLen n).inst.run = st.inst.run := rfl
@[simp] theorem State.setLen_input (n : Nat) : (st.setLen n).inst.input = st.inst.input := rfl
@[simp] theorem State.setLen_moves (n : Nat) : (st.setLen n).inst.moves = st.inst.moves := rfl
@[simp] theorem State.setLen_readOut (n : Nat) : (st.setLen n).inst.readOut = st.inst.readOut := rfl

/-! ### setInput -/

@[simp] theorem State.setInput_params (m : Memory) : (st.setInput m).params = st.params := rfl
@[simp] theorem State.setInput_tables (m : Memory) : (st.setInput m).tables = st.tables := rfl
@[simp] theorem State.setInput_tblReady (m : Memory) : (st.setInput m).tblReady = st.tblReady := rfl
@[simp] theorem State.setInput_parked (m : Memory) : (st.setInput m).parked = st.parked := rfl
@[simp] theorem State.setInput_turns (m : Memory) : (st.setInput m).turns = st.turns := rfl
@[simp] theorem State.setInput_id (m : Memory) : (st.setInput m).inst.id = st.inst.id := rfl
@[simp] theorem State.setInput_init (m : Memory) : (st.setInput m).inst.init = st.inst.init := rfl
@[simp] theorem State.setInput_initSet (m : Memory) : (st.setInput m).inst.initSet = st.inst.initSet := rfl
@[simp] theorem State.setInput_len (m : Memory) : (st.setInput m).inst.len = st.inst.len := rfl
@[simp] theorem State.setInput_lenSet (m : Memory) : (st.setInput m).inst.lenSet = st.inst.lenSet := rfl
@[simp] theorem State.setInput_s (m : Memory) : (st.setInput m).inst.s = st.inst.s := rfl
@[simp] theorem State.setInput_off (m : Memory) : (st.setInput m).inst.off = st.inst.off := rfl
@[simp] theorem State.setInput_idx (m : Memory) : (st.setInput m).inst.idx = st.inst.idx := rfl
@[simp] theorem State.setInput_done (m : Memory) : (st.setInput m).inst.done = st.inst.done := rfl
@[simp] theorem State.setInput_err (m : Memory) : (st.setInput m).inst.err = st.inst.err := rfl
@[simp] theorem State.setInput_result (m : Memory) : (st.setInput m).inst.result = st.inst.result := rfl
@[simp] theorem State.setInput_run (m : Memory) : (st.setInput m).inst.run = st.inst.run := rfl
@[simp] theorem State.setInput_input (m : Memory) : (st.setInput m).inst.input = m := rfl
@[simp] theorem State.setInput_moves (m : Memory) : (st.setInput m).inst.moves = st.inst.moves := rfl
@[simp] theorem State.setInput_readOut (m : Memory) : (st.setInput m).inst.readOut = st.inst.readOut := rfl

/-! ### setReadOut -/

@[simp] theorem State.setReadOut_params (r : CReg) (v : Nat) : (st.setReadOut r v).params = st.params := rfl
@[simp] theorem State.setReadOut_tables (r : CReg) (v : Nat) : (st.setReadOut r v).tables = st.tables := rfl
@[simp] theorem State.setReadOut_tblReady (r : CReg) (v : Nat) : (st.setReadOut r v).tblReady = st.tblReady := rfl
@[simp] theorem State.setReadOut_parked (r : CReg) (v : Nat) : (st.setReadOut r v).parked = st.parked := rfl
@[simp] theorem State.setReadOut_turns (r : CReg) (v : Nat) : (st.setReadOut r v).turns = st.turns := rfl
@[simp] theorem State.setReadOut_id (r : CReg) (v : Nat) : (st.setReadOut r v).inst.id = st.inst.id := rfl
@[simp] theorem State.setReadOut_init (r : CReg) (v : Nat) : (st.setReadOut r v).inst.init = st.inst.init := rfl
@[simp] theorem State.setReadOut_initSet (r : CReg) (v : Nat) : (st.setReadOut r v).inst.initSet = st.inst.initSet := rfl
@[simp] theorem State.setReadOut_len (r : CReg) (v : Nat) : (st.setReadOut r v).inst.len = st.inst.len := rfl
@[simp] theorem State.setReadOut_lenSet (r : CReg) (v : Nat) : (st.setReadOut r v).inst.lenSet = st.inst.lenSet := rfl
@[simp] theorem State.setReadOut_s (r : CReg) (v : Nat) : (st.setReadOut r v).inst.s = st.inst.s := rfl
@[simp] theorem State.setReadOut_off (r : CReg) (v : Nat) : (st.setReadOut r v).inst.off = st.inst.off := rfl
@[simp] theorem State.setReadOut_idx (r : CReg) (v : Nat) : (st.setReadOut r v).inst.idx = st.inst.idx := rfl
@[simp] theorem State.setReadOut_done (r : CReg) (v : Nat) : (st.setReadOut r v).inst.done = st.inst.done := rfl
@[simp] theorem State.setReadOut_err (r : CReg) (v : Nat) : (st.setReadOut r v).inst.err = st.inst.err := rfl
@[simp] theorem State.setReadOut_result (r : CReg) (v : Nat) : (st.setReadOut r v).inst.result = st.inst.result := rfl
@[simp] theorem State.setReadOut_run (r : CReg) (v : Nat) : (st.setReadOut r v).inst.run = st.inst.run := rfl
@[simp] theorem State.setReadOut_input (r : CReg) (v : Nat) : (st.setReadOut r v).inst.input = st.inst.input := rfl
@[simp] theorem State.setReadOut_moves (r : CReg) (v : Nat) : (st.setReadOut r v).inst.moves = st.inst.moves := rfl
@[simp] theorem State.setReadOut_readOut (r : CReg) (v : Nat) : (st.setReadOut r v).inst.readOut = some (r, v) := rfl

/-! ### setMoves -/

@[simp] theorem State.setMoves_params (ms : List HostMove) : (st.setMoves ms).params = st.params := rfl
@[simp] theorem State.setMoves_tables (ms : List HostMove) : (st.setMoves ms).tables = st.tables := rfl
@[simp] theorem State.setMoves_tblReady (ms : List HostMove) : (st.setMoves ms).tblReady = st.tblReady := rfl
@[simp] theorem State.setMoves_parked (ms : List HostMove) : (st.setMoves ms).parked = st.parked := rfl
@[simp] theorem State.setMoves_turns (ms : List HostMove) : (st.setMoves ms).turns = st.turns := rfl
@[simp] theorem State.setMoves_id (ms : List HostMove) : (st.setMoves ms).inst.id = st.inst.id := rfl
@[simp] theorem State.setMoves_init (ms : List HostMove) : (st.setMoves ms).inst.init = st.inst.init := rfl
@[simp] theorem State.setMoves_initSet (ms : List HostMove) : (st.setMoves ms).inst.initSet = st.inst.initSet := rfl
@[simp] theorem State.setMoves_len (ms : List HostMove) : (st.setMoves ms).inst.len = st.inst.len := rfl
@[simp] theorem State.setMoves_lenSet (ms : List HostMove) : (st.setMoves ms).inst.lenSet = st.inst.lenSet := rfl
@[simp] theorem State.setMoves_s (ms : List HostMove) : (st.setMoves ms).inst.s = st.inst.s := rfl
@[simp] theorem State.setMoves_off (ms : List HostMove) : (st.setMoves ms).inst.off = st.inst.off := rfl
@[simp] theorem State.setMoves_idx (ms : List HostMove) : (st.setMoves ms).inst.idx = st.inst.idx := rfl
@[simp] theorem State.setMoves_done (ms : List HostMove) : (st.setMoves ms).inst.done = st.inst.done := rfl
@[simp] theorem State.setMoves_err (ms : List HostMove) : (st.setMoves ms).inst.err = st.inst.err := rfl
@[simp] theorem State.setMoves_result (ms : List HostMove) : (st.setMoves ms).inst.result = st.inst.result := rfl
@[simp] theorem State.setMoves_run (ms : List HostMove) : (st.setMoves ms).inst.run = st.inst.run := rfl
@[simp] theorem State.setMoves_input (ms : List HostMove) : (st.setMoves ms).inst.input = st.inst.input := rfl
@[simp] theorem State.setMoves_moves (ms : List HostMove) : (st.setMoves ms).inst.moves = ms := rfl
@[simp] theorem State.setMoves_readOut (ms : List HostMove) : (st.setMoves ms).inst.readOut = st.inst.readOut := rfl

/-! ### resetAll -/

@[simp] theorem State.resetAll_params : st.resetAll.params = st.params := rfl
@[simp] theorem State.resetAll_tables : st.resetAll.tables = Tables.afterReset st.params.autoBuild := rfl
@[simp] theorem State.resetAll_tblReady : st.resetAll.tblReady = st.params.autoBuild := rfl
@[simp] theorem State.resetAll_parked : st.resetAll.parked = st.parked.map Inst.reset := rfl
@[simp] theorem State.resetAll_turns : st.resetAll.turns = st.turns := rfl
@[simp] theorem State.resetAll_id : st.resetAll.inst.id = st.inst.id := rfl
@[simp] theorem State.resetAll_init : st.resetAll.inst.init = 0 := rfl
@[simp] theorem State.resetAll_initSet : st.resetAll.inst.initSet = false := rfl
@[simp] theorem State.resetAll_len : st.resetAll.inst.len = 0 := rfl
@[simp] theorem State.resetAll_lenSet : st.resetAll.inst.lenSet = false := rfl
@[simp] theorem State.resetAll_s : st.resetAll.inst.s = 0 := rfl
@[simp] theorem State.resetAll_off : st.resetAll.inst.off = 0 := rfl
@[simp] theorem State.resetAll_idx : st.resetAll.inst.idx = 0 := rfl
@[simp] theorem State.resetAll_done : st.resetAll.inst.done = false := rfl
@[simp] theorem State.resetAll_err : st.resetAll.inst.err = ErrCode.none := rfl
@[simp] theorem State.resetAll_result : st.resetAll.inst.result = 0 := rfl
@[simp] theorem State.resetAll_run : st.resetAll.inst.run = none := rfl
@[simp] theorem State.resetAll_input : st.resetAll.inst.input = st.inst.input := rfl
@[simp] theorem State.resetAll_moves : st.resetAll.inst.moves = st.inst.moves := rfl
@[simp] theorem State.resetAll_readOut : st.resetAll.inst.readOut = st.inst.readOut := rfl

/-! ### beginRun -/

@[simp] theorem State.beginRun_params (v : Variant) (sl : List Byte) : (st.beginRun v sl).params = st.params := by
  cases v <;> rfl
@[simp] theorem State.beginRun_tables (v : Variant) (sl : List Byte) : (st.beginRun v sl).tables = st.tables := by
  cases v <;> rfl
@[simp] theorem State.beginRun_tblReady (v : Variant) (sl : List Byte) : (st.beginRun v sl).tblReady = st.tblReady := by
  cases v <;> rfl
@[simp] theorem State.beginRun_parked (v : Variant) (sl : List Byte) : (st.beginRun v sl).parked = st.parked := by
  cases v <;> rfl
@[simp] theorem State.beginRun_turns (v : Variant) (sl : List Byte) : (st.beginRun v sl).turns = st.turns := by
  cases v <;> rfl
@[simp] theorem State.beginRun_id (v : Variant) (sl : List Byte) : (st.beginRun v sl).inst.id = st.inst.id := by
  cases v <;> rfl
@[simp] theorem State.beginRun_init (v : Variant) (sl : List Byte) : (st.beginRun v sl).inst.init = st.inst.init := by
  cases v <;> rfl
@[simp] theorem State.beginRun_initSet (v : Variant) (sl : List Byte) : (st.beginRun v sl).inst.initSet = st.inst.initSet := by
  cases v <;> rfl
@[simp] theorem State.beginRun_len (v : Variant) (sl : List Byte) : (st.beginRun v sl).inst.len = st.inst.len := by
  cases v <;> rfl
@[simp] theorem State.beginRun_lenSet (v : Variant) (sl : List Byte) : (st.beginRun v sl).inst.lenSet = st.inst.lenSet := by
  cases v <;> rfl
@[simp] theorem State.beginRun_idx (v : Variant) (sl : List Byte) : (st.beginRun v sl).inst.idx = 0 := by
  cases v <;> rfl
@[simp] theorem State.beginRun_done (v : Variant) (sl : List Byte) : (st.beginRun v sl).inst.done = false := by
  cases v <;> rfl
@[simp] theorem State.beginRun_err (v : Variant) (sl : List Byte) : (st.beginRun v sl).inst.err = st.inst.err := by
  cases v <;> rfl
@[simp] theorem State.beginRun_result (v : Variant) (sl : List Byte) : (st.beginRun v sl).inst.result = st.inst.result := by
  cases v <;> rfl
@[simp] theorem State.beginRun_run (v : Variant) (sl : List Byte) : (st.beginRun v sl).inst.run = some ⟨v, sl⟩ := by
  cases v <;> rfl
@[simp] theorem State.beginRun_input (v : Variant) (sl : List Byte) : (st.beginRun v sl).inst.input = st.inst.input := by
  cases v <;> rfl
@[simp] theorem State.beginRun_moves (v : Variant) (sl : List Byte) : (st.beginRun v sl).inst.moves = st.inst.moves := by
  cases v <;> rfl
@[simp] theorem State.beginRun_readOut (v : Variant) (sl : List Byte) : (st.beginRun v sl).inst.readOut = st.inst.readOut := by
  cases v <;> rfl

theorem State.beginRun_raw (v : Variant) (sl : List Byte) (h : v.rawState = true) :
    st.beginRun v sl =
      { st with inst := { st.inst with done := false, idx := 0, s := st.inst.init, run := some ⟨v, sl⟩ } } := by
  simp [State.beginRun, h]

theorem State.beginRun_premul (v : Variant) (sl : List Byte) (h : v.rawState = false) :
    st.beginRun v sl =
      { st with inst :=
        { st.inst with done := false, idx := 0, off := premulLoad st.inst.init, run := some ⟨v, sl⟩ } } := by
  simp [State.beginRun, h]

end Sys2Proof.Machine
end

