-- ==== Sys2Proof/Laws/Tables.lean ====
section
/-! SUPPORT. What the built tables answer, and what the extraction of a field gives: the agreement of the physical
encodings with the transition function (R156), entry by entry. -/

namespace Sys2Proof.Machine

theorem allBytes_getElem? (b : Byte) : allBytes[b.toNat]? = some b := by
  have h : b.toNat < 256 := b.isLt
  simp [allBytes, h]

theorem allStates_getElem? (X : DState) : allStates[(code X).toNat]? = some X := by
  cases X <;> rfl

theorem stateOf_code (X : DState) : stateOf (code X) = some X := by
  cases X <;> rfl

theorem code_injective (X Y : DState) (h : code X = code Y) : X = Y :=
  Option.some.inj (by rw [← stateOf_code X, ← stateOf_code Y, h])

theorem code_toNat_le (X : DState) : (code X).toNat ≤ 8 := by
  cases X <;> decide

/-- A 4-bit value up to 8 is the code of a state (R21). -/
theorem exists_code (c : Code) (h : ¬ c.toNat > 8) : ∃ X, c = code X := by
  have hall : ∀ c : Code, ¬ c.toNat > 8 → (allStates.any fun X => c == code X) = true := by decide
  have hc := hall c h
  rw [List.any_eq_true] at hc
  obtain ⟨X, _, hX⟩ := hc
  exact ⟨X, by simpa using hX⟩

@[simp] theorem readSb_built (X : DState) (b : Byte) :
    Tables.built.readSb (code X) b = some (code (delta X b)) := by
  simp [Tables.readSb, Tables.built, List.getElem?_map, allStates_getElem?, allBytes_getElem?, denseEntry]

@[simp] theorem readBs_built (X : DState) (b : Byte) :
    Tables.built.readBs b (code X) = some (code (delta X b)) := by
  simp [Tables.readBs, Tables.built, List.getElem?_map, allStates_getElem?, allBytes_getElem?, denseEntry]

@[simp] theorem readRow4_built (b : Byte) : Tables.built.readRow4 b = some (buildRow4 b) := by
  simp [Tables.readRow4, Tables.built, List.getElem?_map, allBytes_getElem?]

@[simp] theorem readRow6p_built (b : Byte) : Tables.built.readRow6p b = some (buildRow6p b) := by
  simp [Tables.readRow6p, Tables.built, List.getElem?_map, allBytes_getElem?]

@[simp] theorem readSb_empty (c : Code) (b : Byte) : Tables.empty.readSb c b = none := by
  simp [Tables.readSb, Tables.empty]

@[simp] theorem readBs_empty (c : Code) (b : Byte) : Tables.empty.readBs b c = none := by
  simp [Tables.readBs, Tables.empty]

@[simp] theorem readRow4_empty (b : Byte) : Tables.empty.readRow4 b = none := by
  simp [Tables.readRow4, Tables.empty]

@[simp] theorem readRow6p_empty (b : Byte) : Tables.empty.readRow6p b = none := by
  simp [Tables.readRow6p, Tables.empty]

/-! ### Extracting a field of a packed row (R94) -/

/-- Bit `j` of the field of current state `X` is bit `j` of that field's value, for fields of 4 bits. -/
theorem packRow4_bit (f : DState → Row) (hf : ∀ X j (_ : j < 64), 4 ≤ j → (f X)[j] = false) (X : DState) (j : Nat)
    (hj : j < 4) : (packRow 4 f).getLsbD ((code X).toNat * 4 + j) = (f X).getLsbD j := by
  interval_cases j <;> cases X <;> simp [packRow, packField, allStates, code, hf]

/-- The same for fields of 6 bits. -/
theorem packRow6_bit (f : DState → Row) (hf : ∀ X j (_ : j < 64), 6 ≤ j → (f X)[j] = false) (X : DState) (j : Nat)
    (hj : j < 6) : (packRow 6 f).getLsbD ((code X).toNat * 6 + j) = (f X).getLsbD j := by
  interval_cases j <;> cases X <;> simp [packRow, packField, allStates, code, hf]

/-- A code, zero-extended, has no bit above the fourth. -/
theorem zext64_high (c : Code) (j : Nat) (h : j < 64) (hj : 4 ≤ j) : (zext64 c)[j] = false := by
  simp [zext64, BitVec.getElem_setWidth, BitVec.getLsbD_of_ge c j hj]

/-- Six times a state's code has no bit above the sixth. -/
theorem premul_high (X : DState) (j : Nat) (h : j < 64) (hj : 6 ≤ j) : (6 * zext64 (code X))[j] = false := by
  have hlt : (6 * zext64 (code X)).toNat < 2 ^ j :=
    lt_of_lt_of_le (b := 2 ^ 6) (by cases X <;> decide) (Nat.pow_le_pow_right (by decide) hj)
  rw [← BitVec.getLsbD_eq_getElem, BitVec.getLsbD]
  exact Nat.testBit_lt_two_pow hlt

/-- The plain step on a built `ROW4` row gives the next state's code (R180). -/
@[simp] theorem plainStep4_built (X : DState) (b : Byte) :
    plainStep4 (buildRow4 b) (code X) = code (delta X b) := by
  ext j hj
  have hb := packRow4_bit (fun X => zext64 (denseEntry X b)) (fun X => zext64_high _) X j hj
  have hm : (fieldMask 4).getLsbD j = true := by interval_cases j <;> rfl
  have h64 : j < 64 := by omega
  have hc : (code (delta X b)).getLsbD j = (code (delta X b))[j] := BitVec.getLsbD_eq_getElem hj
  simp only [plainStep4, plainStep, BitVec.getElem_setWidth, BitVec.getLsbD_and, BitVec.getLsbD_ushiftRight, hm,
    Bool.and_true]
  rw [buildRow4, hb]
  simp [zext64, denseEntry, h64, hc]

/-- The plain step with `W = 6` on a reference row gives the next state's code (R191). -/
theorem plainStep6_built (X : DState) (b : Byte) :
    plainStep 6 (buildRow6n b) (code X) = zext64 (code (delta X b)) := by
  ext j hj
  by_cases h6 : j < 6
  · have hb := packRow6_bit (fun X => zext64 (denseEntry X b)) (fun X j h hj => zext64_high _ j h (by omega)) X j h6
    have hm : (fieldMask 6).getLsbD j = true := by interval_cases j <;> rfl
    rw [← BitVec.getLsbD_eq_getElem, ← BitVec.getLsbD_eq_getElem]
    simp only [plainStep, BitVec.getLsbD_and, BitVec.getLsbD_ushiftRight, hm, Bool.and_true]
    rw [buildRow6n, hb]
    rfl
  · have hm : (fieldMask 6).getLsbD j = false := by
      rw [BitVec.getLsbD]
      exact Nat.testBit_lt_two_pow (lt_of_lt_of_le (b := 2 ^ 6) (by decide)
        (Nat.pow_le_pow_right (by decide) (by omega)))
    rw [zext64_high _ j hj (by omega), ← BitVec.getLsbD_eq_getElem]
    simp [plainStep, BitVec.getLsbD_and, hm]

/-- The shift amount taken from an offset that carries `X` (R185: at most 48). -/
theorem shiftAmount_toNat (off : Row) (X : DState) (h : shiftAmount off = premulLoad (code X)) :
    (shiftAmount off).toNat = (code X).toNat * 6 := by
  rw [h]
  cases X <;> rfl

/-- The pre-multiplied step on a built `ROW6P` row: the low six bits are 6 times the next state's code (R182, R186). -/
theorem premulStep_built (X : DState) (b : Byte) (off : Row) (h : shiftAmount off = premulLoad (code X)) :
    shiftAmount (premulStep (buildRow6p b) off) = premulLoad (code (delta X b)) := by
  have hs := shiftAmount_toNat off X h
  ext j hj
  rw [← BitVec.getLsbD_eq_getElem, ← BitVec.getLsbD_eq_getElem]
  have hm : (63 : Row) = fieldMask 6 := rfl
  simp only [shiftAmount, premulStep, BitVec.getLsbD_and, BitVec.getLsbD_ushiftRight]
  rw [show (off &&& 63).toNat = (code X).toNat * 6 from hs, hm]
  by_cases h6 : j < 6
  · have hb := packRow6_bit (fun X => 6 * zext64 (denseEntry X b)) (fun X => premul_high _) X j h6
    have hmj : (fieldMask 6).getLsbD j = true := by interval_cases j <;> rfl
    rw [hmj, Bool.and_true, buildRow6p, hb]
    rfl
  · have hmj : (fieldMask 6).getLsbD j = false := by
      rw [BitVec.getLsbD]
      exact Nat.testBit_lt_two_pow (lt_of_lt_of_le (b := 2 ^ 6) (by decide)
        (Nat.pow_le_pow_right (by decide) (by omega)))
    have hr : (premulLoad (code (delta X b))).getLsbD j = false := by
      rw [BitVec.getLsbD_eq_getElem hj]
      exact premul_high _ j hj (by omega)
    rw [hmj, hr, Bool.and_false]

/-- The final decode of an offset that carries `X` is exact (R185, R203). -/
theorem premulDecode_of_carries (off : Row) (X : DState) (h : shiftAmount off = premulLoad (code X)) :
    premulDecode off = code X := by
  rw [premulDecode, h]
  cases X <;> rfl

/-- The offset loaded from an initial state carries it (R202). -/
theorem shiftAmount_load (X : DState) : shiftAmount (premulLoad (code X)) = premulLoad (code X) := by
  cases X <;> rfl

end Sys2Proof.Machine
end

