-- ==== Sys2Proof/Laws/Ops.lean ====
section
/-! SUPPORT. One lemma per shared operation that says everything it can answer. -/

namespace Sys2Proof.Machine

/-- The loop test of every variant lets a byte be consumed exactly while one is left: the unrolled groups are not
observable (R184, R189). -/
theorem bytesRemain_eq (v : Variant) (idx len : Nat) : bytesRemain v idx len = decide (idx < len) := by
  cases v with
  | p6u =>
    simp only [bytesRemain]
    split
    · rw [eq_comm, decide_eq_true_eq]
      omega
    · split
      · rw [eq_comm, decide_eq_true_eq]
        omega
      · rfl
  | ds => rfl
  | db => rfl
  | p4 => rfl
  | p6 => rfl

/-- A raw byte step answers only these. -/
theorem carryS_cases (st : State) (o : Option Code) :
    (∃ n, o = some n ∧ carryS st o = .next (st.stepS n)) ∨ (o = none ∧ carryS st o = .fault .tableEntryAbsent) := by
  cases o with
  | none => exact .inr ⟨rfl, rfl⟩
  | some n => exact .inl ⟨n, rfl, rfl⟩

/-- A pre-multiplied byte step answers only these. -/
theorem carryOff_cases (st : State) (o : Option Row) :
    (∃ n, o = some n ∧ carryOff st o = .next (st.stepOff n)) ∨ (o = none ∧ carryOff st o = .fault .tableEntryAbsent) := by
  cases o with
  | none => exact .inr ⟨rfl, rfl⟩
  | some n => exact .inl ⟨n, rfl, rfl⟩

/-- Everything a byte step can do: it writes `S` or `OFF` and advances `IDX`, and changes nothing else. -/
theorem byteStep_cases {b : Byte} {st t : State} (h : byteStep b st = .next t) :
    ∃ r, st.inst.run = some r ∧
      ((r.variant.rawState = true ∧ ∃ n, t = st.stepS n) ∨ (r.variant.rawState = false ∧ ∃ o, t = st.stepOff o)) := by
  unfold byteStep at h
  split at h
  · cases h
  · rename_i r hr
    refine ⟨r, hr, ?_⟩
    split at h
    all_goals rename_i hv
    · obtain ⟨n, _, he⟩ | ⟨_, he⟩ := carryS_cases st (st.tables.readSb st.inst.s b)
      · exact .inl ⟨by rw [hv]; rfl, n, by rw [he] at h; cases h; rfl⟩
      · rw [he] at h; cases h
    · obtain ⟨n, _, he⟩ | ⟨_, he⟩ := carryS_cases st (st.tables.readBs b st.inst.s)
      · exact .inl ⟨by rw [hv]; rfl, n, by rw [he] at h; cases h; rfl⟩
      · rw [he] at h; cases h
    · obtain ⟨n, _, he⟩ | ⟨_, he⟩ :=
        carryS_cases st ((st.tables.readRow4 b).map fun row => plainStep4 row st.inst.s)
      · exact .inl ⟨by rw [hv]; rfl, n, by rw [he] at h; cases h; rfl⟩
      · rw [he] at h; cases h
    · obtain ⟨n, _, he⟩ | ⟨_, he⟩ :=
        carryOff_cases st ((st.tables.readRow6p b).map fun row => premulStep row st.inst.off)
      · exact .inr ⟨by rw [hv]; rfl, n, by rw [he] at h; cases h; rfl⟩
      · rw [he] at h; cases h
    · obtain ⟨n, _, he⟩ | ⟨_, he⟩ :=
        carryOff_cases st ((st.tables.readRow6p b).map fun row => premulStep row st.inst.off)
      · exact .inr ⟨by rw [hv]; rfl, n, by rw [he] at h; cases h; rfl⟩
      · rw [he] at h; cases h

/-- A byte step over built tables, in a variant that carries the raw state (R170, R171, R181). -/
theorem byteStep_raw {b : Byte} {st : State} {r : Run} {X : DState} (ht : st.tables = Tables.built)
    (hr : st.inst.run = some r) (hv : r.variant.rawState = true) (hX : st.inst.s = code X) :
    byteStep b st = .next (st.stepS (code (delta X b))) := by
  obtain ⟨v, sl⟩ := r
  cases v <;> simp_all [byteStep, carryS, Variant.rawState]

/-- A byte step over built tables, in a variant that carries the offset (R183, R184). -/
theorem byteStep_premul {b : Byte} {st : State} {r : Run} (ht : st.tables = Tables.built)
    (hr : st.inst.run = some r) (hv : r.variant.rawState = false) :
    byteStep b st = .next (st.stepOff (premulStep (buildRow6p b) st.inst.off)) := by
  obtain ⟨v, sl⟩ := r
  cases v <;> simp_all [byteStep, carryOff, Variant.rawState]

/-- A command is ignored while a fault is recorded (R227). -/
theorem command_ignored (body : State → Answer) (st : State) (h : st.inst.err ≠ .none) : command body st = .next st := by
  unfold command
  split
  · rename_i he
    exact absurd he h
  all_goals rfl

/-- A command runs while no fault is recorded. -/
theorem command_runs (body : State → Answer) (st : State) (h : st.inst.err = .none) : command body st = body st := by
  simp [command, h]

/-- Everything a prologue can answer with a next state (R202). -/
theorem prologue_cases {v : Variant} {st t : State} (h : prologue v st = .next t) :
    (st.tblReady = false ∧ t = st.raise .tablesNotBuilt) ∨
    (st.tblReady = true ∧ st.inst.init.toNat > 8 ∧ t = st.raise .illegalInitialState) ∨
    (st.tblReady = true ∧ ∃ X sl, st.inst.init = code X ∧ snapshot st.inst = some sl ∧ t = st.beginRun v sl) := by
  unfold prologue at h
  split at h
  · rename_i hr
    cases h
    exact .inl ⟨hr, rfl⟩
  · rename_i hr
    split at h
    · rename_i h8
      cases h
      exact .inr (.inl ⟨by simpa using hr, h8, rfl⟩)
    · rename_i h8
      split at h
      · cases h
      · rename_i sl hs
        cases h
        obtain ⟨X, hX⟩ := exists_code st.inst.init h8
        exact .inr (.inr ⟨by simpa using hr, X, sl, hX, hs, rfl⟩)

/-- A prologue with built tables, a state's code in `INIT` and its whole slice supplied begins the run (R202). -/
theorem prologue_begins {v : Variant} {st : State} {X : DState} {sl : List Byte} (hr : st.tblReady = true)
    (hX : st.inst.init = code X) (hs : snapshot st.inst = some sl) : prologue v st = .next (st.beginRun v sl) := by
  have h8 : ¬ 8 < st.inst.init.toNat := by
    rw [hX]
    exact Nat.not_lt.mpr (code_toNat_le X)
  simp [prologue, hr, h8, hs]

/-- The same prologue stops where a byte of its slice was never supplied (log entry 6). -/
theorem prologue_stops {v : Variant} {st : State} {X : DState} (hr : st.tblReady = true)
    (hX : st.inst.init = code X) (hs : snapshot st.inst = none) : prologue v st = .fault .inputByteAbsent := by
  have h8 : ¬ 8 < st.inst.init.toNat := by
    rw [hX]
    exact Nat.not_lt.mpr (code_toNat_le X)
  simp [prologue, hr, h8, hs]

/-- RESET goes through exactly when no other instance is inside a command. -/
theorem doReset_cases (st : State) :
    (st.otherRuns = false ∧ doReset st = .next st.resetAll) ∨
    (st.otherRuns = true ∧ doReset st = .refused .resetDuringCommand) := by
  cases h : st.otherRuns with
  | false => exact .inl ⟨rfl, by simp [doReset, h]⟩
  | true => exact .inr ⟨rfl, by simp [doReset, h]⟩

/-- A host read that answers writes only what the host has read. -/
theorem hostRead_cases {r : CReg} {st t : State} (h : hostRead r st = .next t) : ∃ q v, t = st.setReadOut q v := by
  cases r with
  | cmd => cases h
  | status => exact ⟨.status, _, by cases h; rfl⟩
  | init => exact ⟨.init, _, by cases h; rfl⟩
  | len => exact ⟨.len, _, by cases h; rfl⟩
  | result =>
    simp only [hostRead] at h
    split at h
    · cases h; exact ⟨.result, _, rfl⟩
    · cases h

/-- `INIT <- RESULT` goes through exactly when `RESULT` has a value. -/
theorem hostCarry_cases {st t : State} (h : hostCarry st = .next t) :
    st.inst.done = true ∧ t = (st.setReadOut .result st.inst.result.toNat).setInit st.inst.result := by
  simp only [hostCarry] at h
  split at h
  · rename_i hd
    cases h
    exact ⟨hd, rfl⟩
  · cases h

/-- A write of `LEN` goes through exactly when the length fits. -/
theorem hostWriteLen_cases {n : Nat} {st t : State} (h : hostWriteLen n st = .next t) :
    Config.lenFits st.params n = true ∧ t = st.setLen n := by
  simp only [hostWriteLen] at h
  split at h
  · rename_i hf
    cases h
    exact ⟨hf, rfl⟩
  · cases h

/-- Taking an instance out of a list only rearranges it. -/
theorem takeInst_perm {k : Nat} {l : List Inst} {i : Inst} {rest : List Inst} (h : takeInst k l = some (i, rest)) :
    i.id = k ∧ l.Perm (i :: rest) := by
  induction l generalizing i rest with
  | nil => cases h
  | cons j l ih =>
    simp only [takeInst] at h
    split at h
    · rename_i hk
      cases h
      exact ⟨hk, List.Perm.refl _⟩
    · rw [Option.map_eq_some_iff] at h
      obtain ⟨⟨i', rest'⟩, ht, he⟩ := h
      cases he
      obtain ⟨hid, hp⟩ := ih ht
      exact ⟨hid, (hp.cons j).trans (List.Perm.swap _ _ _)⟩

/-- Choosing the acting instance only rearranges the instances (R233). -/
theorem focus_spec {st t : State} {k : Nat} (h : st.focus k = some t) :
    t.inst.id = k ∧ (st.inst :: st.parked).Perm (t.inst :: t.parked) ∧ t.params = st.params ∧
      t.tables = st.tables ∧ t.tblReady = st.tblReady ∧ t.turns = st.turns := by
  simp only [State.focus] at h
  split at h
  · rename_i hk
    cases h
    exact ⟨hk, List.Perm.refl _, rfl, rfl, rfl, rfl⟩
  · rw [Option.map_eq_some_iff] at h
    obtain ⟨⟨i, rest⟩, ht, he⟩ := h
    cases he
    obtain ⟨hid, hp⟩ := takeInst_perm ht
    exact ⟨hid, (hp.cons st.inst).trans (List.Perm.swap _ _ _), rfl, rfl, rfl, rfl⟩

/-- Taking a turn only chooses the acting instance and uses the turn up. -/
theorem takeTurn_spec {st t : State} (h : st.takeTurn = .ok t) :
    (st.inst :: st.parked).Perm (t.inst :: t.parked) ∧ t.params = st.params ∧ t.tables = st.tables ∧
      t.tblReady = st.tblReady ∧ t.turns = st.turns.tail := by
  unfold State.takeTurn at h
  split at h
  · rename_i ht
    cases h
    exact ⟨List.Perm.refl _, rfl, rfl, rfl, by simp [ht]⟩
  · rename_i k ks ht
    split at h
    · rename_i u hu
      cases h
      obtain ⟨_, hp, h1, h2, h3, h4⟩ := focus_spec hu
      exact ⟨hp, h1, h2, h3, by rw [h4, ht]; rfl⟩
    · cases h

/-- With no turn left the acting instance stays. -/
theorem takeTurn_nil {st : State} (h : st.turns = []) : st.takeTurn = .ok st := by
  simp [State.takeTurn, h]

end Sys2Proof.Machine
end

