-- ==== Sys2Proof/Laws/PerInstr.lean ====
section
/-! SUPPORT. The per-instruction family RowRange: an instruction's word has the format of its row, and the words that make
it well-formed are exactly those from the row's first to its last word, as spec/opcode_table.json lists them. -/

namespace Sys2Proof.Laws.RowRange

/-- The first and the last word of the row of an instruction (spec/opcode_table.json: first and last; a row of one word has
its match). -/
def bounds : Instr → Nat × Nat
  | .ascii _ => (0x00, 0x7F)
  | .cont80 _ => (0x80, 0x8F)
  | .cont90 _ => (0x90, 0x9F)
  | .contA0 _ => (0xA0, 0xBF)
  | .illegalC0 _ => (0xC0, 0xC1)
  | .lead2C2 _ => (0xC2, 0xC3)
  | .lead2C4 _ => (0xC4, 0xC7)
  | .lead2C8 _ => (0xC8, 0xCF)
  | .lead2D0 _ => (0xD0, 0xDF)
  | .lead3Low => (0xE0, 0xE0)
  | .lead3E1 => (0xE1, 0xE1)
  | .lead3E2 _ => (0xE2, 0xE3)
  | .lead3E4 _ => (0xE4, 0xE7)
  | .lead3E8 _ => (0xE8, 0xEB)
  | .lead3EC => (0xEC, 0xEC)
  | .lead3High => (0xED, 0xED)
  | .lead3EE _ => (0xEE, 0xEF)
  | .lead4Low => (0xF0, 0xF0)
  | .lead4F1 => (0xF1, 0xF1)
  | .lead4F2 _ => (0xF2, 0xF3)
  | .lead4High => (0xF4, 0xF4)
  | .illegalF5 => (0xF5, 0xF5)
  | .illegalF6 _ => (0xF6, 0xF7)
  | .illegalF8 _ => (0xF8, 0xFF)
  | .nop => (0x00, 0x00)
  | .build => (0x08, 0x08)
  | .validateDs => (0x10, 0x10)
  | .validateDb => (0x11, 0x11)
  | .validateP4 => (0x12, 0x12)
  | .validateP6 => (0x13, 0x13)
  | .validateP6u => (0x14, 0x14)
  | .reserved01 => (0x01, 0x01)
  | .reserved02 _ => (0x02, 0x03)
  | .reserved04 _ => (0x04, 0x07)
  | .reserved09 => (0x09, 0x09)
  | .reserved0A _ => (0x0A, 0x0B)
  | .reserved0C _ => (0x0C, 0x0F)
  | .reserved15 => (0x15, 0x15)
  | .reserved16 _ => (0x16, 0x17)
  | .reserved18 _ => (0x18, 0x1F)

/-- The word of an instruction and the words of its row, as numbers. -/
def Statement (i : Instr) : Prop :=
  match encode i with
  | .byte b => i.format = .byte ∧ (i.WellFormed ↔ (bounds i).1 ≤ b.toNat ∧ b.toNat ≤ (bounds i).2)
  | .cmd w => i.format = .cmd ∧ (i.WellFormed ↔ (bounds i).1 ≤ w.toNat ∧ w.toNat ≤ (bounds i).2)

/-- Each aligned block of R82 with more than one byte is the range of bytes that the table names. -/
theorem byte_blocks : ∀ b : Byte,
    (inBlock8 0x80 0x00 b = true ↔ 0x00 ≤ b.toNat ∧ b.toNat ≤ 0x7F) ∧
    (inBlock8 0xF0 0x80 b = true ↔ 0x80 ≤ b.toNat ∧ b.toNat ≤ 0x8F) ∧
    (inBlock8 0xF0 0x90 b = true ↔ 0x90 ≤ b.toNat ∧ b.toNat ≤ 0x9F) ∧
    (inBlock8 0xE0 0xA0 b = true ↔ 0xA0 ≤ b.toNat ∧ b.toNat ≤ 0xBF) ∧
    (inBlock8 0xFE 0xC0 b = true ↔ 0xC0 ≤ b.toNat ∧ b.toNat ≤ 0xC1) ∧
    (inBlock8 0xFE 0xC2 b = true ↔ 0xC2 ≤ b.toNat ∧ b.toNat ≤ 0xC3) ∧
    (inBlock8 0xFC 0xC4 b = true ↔ 0xC4 ≤ b.toNat ∧ b.toNat ≤ 0xC7) ∧
    (inBlock8 0xF8 0xC8 b = true ↔ 0xC8 ≤ b.toNat ∧ b.toNat ≤ 0xCF) ∧
    (inBlock8 0xF0 0xD0 b = true ↔ 0xD0 ≤ b.toNat ∧ b.toNat ≤ 0xDF) ∧
    (inBlock8 0xFE 0xE2 b = true ↔ 0xE2 ≤ b.toNat ∧ b.toNat ≤ 0xE3) ∧
    (inBlock8 0xFC 0xE4 b = true ↔ 0xE4 ≤ b.toNat ∧ b.toNat ≤ 0xE7) ∧
    (inBlock8 0xFC 0xE8 b = true ↔ 0xE8 ≤ b.toNat ∧ b.toNat ≤ 0xEB) ∧
    (inBlock8 0xFE 0xEE b = true ↔ 0xEE ≤ b.toNat ∧ b.toNat ≤ 0xEF) ∧
    (inBlock8 0xFE 0xF2 b = true ↔ 0xF2 ≤ b.toNat ∧ b.toNat ≤ 0xF3) ∧
    (inBlock8 0xFE 0xF6 b = true ↔ 0xF6 ≤ b.toNat ∧ b.toNat ≤ 0xF7) ∧
    (inBlock8 0xF8 0xF8 b = true ↔ 0xF8 ≤ b.toNat ∧ b.toNat ≤ 0xFF) := by
  decide +kernel

/-- Each aligned block of reserved command words is the range of words that the table names. -/
theorem cmd_blocks : ∀ w : CmdWord,
    (inBlock5 0x1E 0x02 w = true ↔ 0x02 ≤ w.toNat ∧ w.toNat ≤ 0x03) ∧
    (inBlock5 0x1C 0x04 w = true ↔ 0x04 ≤ w.toNat ∧ w.toNat ≤ 0x07) ∧
    (inBlock5 0x1E 0x0A w = true ↔ 0x0A ≤ w.toNat ∧ w.toNat ≤ 0x0B) ∧
    (inBlock5 0x1C 0x0C w = true ↔ 0x0C ≤ w.toNat ∧ w.toNat ≤ 0x0F) ∧
    (inBlock5 0x1E 0x16 w = true ↔ 0x16 ≤ w.toNat ∧ w.toNat ≤ 0x17) ∧
    (inBlock5 0x18 0x18 w = true ↔ 0x18 ≤ w.toNat ∧ w.toNat ≤ 0x1F) := by
  decide +kernel

theorem ascii (b : Byte) : Statement (.ascii b) :=
  ⟨rfl, (byte_blocks b).1⟩

theorem cont80 (b : Byte) : Statement (.cont80 b) :=
  ⟨rfl, (byte_blocks b).2.1⟩

theorem cont90 (b : Byte) : Statement (.cont90 b) :=
  ⟨rfl, (byte_blocks b).2.2.1⟩

theorem contA0 (b : Byte) : Statement (.contA0 b) :=
  ⟨rfl, (byte_blocks b).2.2.2.1⟩

theorem illegalC0 (b : Byte) : Statement (.illegalC0 b) :=
  ⟨rfl, (byte_blocks b).2.2.2.2.1⟩

theorem lead2C2 (b : Byte) : Statement (.lead2C2 b) :=
  ⟨rfl, (byte_blocks b).2.2.2.2.2.1⟩

theorem lead2C4 (b : Byte) : Statement (.lead2C4 b) :=
  ⟨rfl, (byte_blocks b).2.2.2.2.2.2.1⟩

theorem lead2C8 (b : Byte) : Statement (.lead2C8 b) :=
  ⟨rfl, (byte_blocks b).2.2.2.2.2.2.2.1⟩

theorem lead2D0 (b : Byte) : Statement (.lead2D0 b) :=
  ⟨rfl, (byte_blocks b).2.2.2.2.2.2.2.2.1⟩

theorem lead3Low : Statement .lead3Low :=
  ⟨rfl, by decide⟩

theorem lead3E1 : Statement .lead3E1 :=
  ⟨rfl, by decide⟩

theorem lead3E2 (b : Byte) : Statement (.lead3E2 b) :=
  ⟨rfl, (byte_blocks b).2.2.2.2.2.2.2.2.2.1⟩

theorem lead3E4 (b : Byte) : Statement (.lead3E4 b) :=
  ⟨rfl, (byte_blocks b).2.2.2.2.2.2.2.2.2.2.1⟩

theorem lead3E8 (b : Byte) : Statement (.lead3E8 b) :=
  ⟨rfl, (byte_blocks b).2.2.2.2.2.2.2.2.2.2.2.1⟩

theorem lead3EC : Statement .lead3EC :=
  ⟨rfl, by decide⟩

theorem lead3High : Statement .lead3High :=
  ⟨rfl, by decide⟩

theorem lead3EE (b : Byte) : Statement (.lead3EE b) :=
  ⟨rfl, (byte_blocks b).2.2.2.2.2.2.2.2.2.2.2.2.1⟩

theorem lead4Low : Statement .lead4Low :=
  ⟨rfl, by decide⟩

theorem lead4F1 : Statement .lead4F1 :=
  ⟨rfl, by decide⟩

theorem lead4F2 (b : Byte) : Statement (.lead4F2 b) :=
  ⟨rfl, (byte_blocks b).2.2.2.2.2.2.2.2.2.2.2.2.2.1⟩

theorem lead4High : Statement .lead4High :=
  ⟨rfl, by decide⟩

theorem illegalF5 : Statement .illegalF5 :=
  ⟨rfl, by decide⟩

theorem illegalF6 (b : Byte) : Statement (.illegalF6 b) :=
  ⟨rfl, (byte_blocks b).2.2.2.2.2.2.2.2.2.2.2.2.2.2.1⟩

theorem illegalF8 (b : Byte) : Statement (.illegalF8 b) :=
  ⟨rfl, (byte_blocks b).2.2.2.2.2.2.2.2.2.2.2.2.2.2.2⟩

theorem nop : Statement .nop :=
  ⟨rfl, by decide⟩

theorem build : Statement .build :=
  ⟨rfl, by decide⟩

theorem validateDs : Statement .validateDs :=
  ⟨rfl, by decide⟩

theorem validateDb : Statement .validateDb :=
  ⟨rfl, by decide⟩

theorem validateP4 : Statement .validateP4 :=
  ⟨rfl, by decide⟩

theorem validateP6 : Statement .validateP6 :=
  ⟨rfl, by decide⟩

theorem validateP6u : Statement .validateP6u :=
  ⟨rfl, by decide⟩

theorem reserved01 : Statement .reserved01 :=
  ⟨rfl, by decide⟩

theorem reserved02 (w : CmdWord) : Statement (.reserved02 w) :=
  ⟨rfl, (cmd_blocks w).1⟩

theorem reserved04 (w : CmdWord) : Statement (.reserved04 w) :=
  ⟨rfl, (cmd_blocks w).2.1⟩

theorem reserved09 : Statement .reserved09 :=
  ⟨rfl, by decide⟩

theorem reserved0A (w : CmdWord) : Statement (.reserved0A w) :=
  ⟨rfl, (cmd_blocks w).2.2.1⟩

theorem reserved0C (w : CmdWord) : Statement (.reserved0C w) :=
  ⟨rfl, (cmd_blocks w).2.2.2.1⟩

theorem reserved15 : Statement .reserved15 :=
  ⟨rfl, by decide⟩

theorem reserved16 (w : CmdWord) : Statement (.reserved16 w) :=
  ⟨rfl, (cmd_blocks w).2.2.2.2.1⟩

theorem reserved18 (w : CmdWord) : Statement (.reserved18 w) :=
  ⟨rfl, (cmd_blocks w).2.2.2.2.2⟩

end Sys2Proof.Laws.RowRange
end

