-- ==== Sys2Proof/Laws/Step.lean ====
section
/-! SUPPORT. What executing a decoded word is, and what one step is in each of the situations an instance can be in. -/

namespace Sys2Proof.Machine

/-- An instruction whose word is the byte `b` executes as the byte step on `b` (R81: the word is the table index). -/
theorem exec_of_encode_byte {i : Instr} {b : Byte} (h : encode i = .byte b) (s : State) : exec i s = byteStep b s := by
  cases i <;> first | (cases h; rfl) | cases h

/-- The word that a decoded byte executes. -/
theorem exec_of_decodeByte {i : Instr} {b : Byte} (h : decodeByte b = some i) (s : State) : exec i s = byteStep b s :=
  exec_of_encode_byte (Laws.encode_of_decodeByte h) s

/-- The prologue behind each VALIDATE. -/
theorem exec_validateDs (s : State) : exec .validateDs s = command (prologue .ds) s := rfl
theorem exec_validateDb (s : State) : exec .validateDb s = command (prologue .db) s := rfl
theorem exec_validateP4 (s : State) : exec .validateP4 s = command (prologue .p4) s := rfl
theorem exec_validateP6 (s : State) : exec .validateP6 s = command (prologue .p6) s := rfl
theorem exec_validateP6u (s : State) : exec .validateP6u s = command (prologue .p6u) s := rfl

/-- Everything a BUILD can do (R150, R155). -/
theorem exec_build (s : State) :
    exec .build s = .next (if s.inst.err = .none ∧ s.tblReady = false then s.installTables else s) := by
  show execBuild s = _
  by_cases he : s.inst.err = .none
  · rw [execBuild, command_runs _ _ he]
    cases s.tblReady <;> simp [he]
  · rw [execBuild, command_ignored _ _ he]
    simp [he]

/-- Everything a reserved word can do (R224, R227). -/
theorem reservedWord_eq (s : State) :
    reservedWord s = .next (if s.inst.err = .none then s.raise .illegalCommand else s) := by
  by_cases he : s.inst.err = .none
  · rw [reservedWord, command_runs _ _ he]
    simp [he]
  · rw [reservedWord, command_ignored _ _ he]
    simp [he]

/-- The commands by what they execute. -/
theorem cmd_cases {i : Instr} {w : CmdWord} (h : encode i = .cmd w) :
    i = .nop ∨ i = .build ∨
    (i = .validateDs ∨ i = .validateDb ∨ i = .validateP4 ∨ i = .validateP6 ∨ i = .validateP6u) ∨
    (i ≠ .nop ∧ i ≠ .build ∧ i ≠ .validateDs ∧ i ≠ .validateDb ∧ i ≠ .validateP4 ∧ i ≠ .validateP6 ∧
      i ≠ .validateP6u ∧ ∀ s, exec i s = reservedWord s) := by
  cases i with
  | nop => simp
  | build => simp
  | validateDs => simp
  | validateDb => simp
  | validateP4 => simp
  | validateP6 => simp
  | validateP6u => simp
  | reserved01 => simp; exact fun _ => rfl
  | reserved02 => simp; exact fun _ => rfl
  | reserved04 => simp; exact fun _ => rfl
  | reserved09 => simp; exact fun _ => rfl
  | reserved0A => simp; exact fun _ => rfl
  | reserved0C => simp; exact fun _ => rfl
  | reserved15 => simp; exact fun _ => rfl
  | reserved16 => simp; exact fun _ => rfl
  | reserved18 => simp; exact fun _ => rfl
  | _ => cases h

/-- Everything a command word can do. -/
theorem exec_of_encode_cmd {i : Instr} {w : CmdWord} (h : encode i = .cmd w) (s : State) :
    exec i s = .next s ∨ exec i s = execBuild s ∨ (∃ v, exec i s = command (prologue v) s) ∨ exec i s = reservedWord s := by
  cases i with
  | nop =>
    refine .inl ?_
    show command _ s = _
    unfold command
    split <;> rfl
  | build => exact .inr (.inl rfl)
  | validateDs => exact .inr (.inr (.inl ⟨.ds, rfl⟩))
  | validateDb => exact .inr (.inr (.inl ⟨.db, rfl⟩))
  | validateP4 => exact .inr (.inr (.inl ⟨.p4, rfl⟩))
  | validateP6 => exact .inr (.inr (.inl ⟨.p6, rfl⟩))
  | validateP6u => exact .inr (.inr (.inl ⟨.p6u, rfl⟩))
  | reserved01 => exact .inr (.inr (.inr rfl))
  | reserved02 => exact .inr (.inr (.inr rfl))
  | reserved04 => exact .inr (.inr (.inr rfl))
  | reserved09 => exact .inr (.inr (.inr rfl))
  | reserved0A => exact .inr (.inr (.inr rfl))
  | reserved0C => exact .inr (.inr (.inr rfl))
  | reserved15 => exact .inr (.inr (.inr rfl))
  | reserved16 => exact .inr (.inr (.inr rfl))
  | reserved18 => exact .inr (.inr (.inr rfl))
  | _ => cases h

/-- Everything a command can do to the state when it answers a next state. -/
theorem exec_cmd_cases {i : Instr} {w : CmdWord} {s t : State} (hw : encode i = .cmd w) (h : exec i s = .next t) :
    t = s ∨ (s.tblReady = false ∧ t = s.installTables) ∨ (∃ e, e ≠ .none ∧ t = s.raise e) ∨
    (s.inst.err = .none ∧ s.tblReady = true ∧
      ∃ v X sl, s.inst.init = code X ∧ snapshot s.inst = some sl ∧ t = s.beginRun v sl) := by
  by_cases he : s.inst.err = .none
  · obtain h1 | h1 | ⟨v, h1⟩ | h1 := exec_of_encode_cmd hw s
    · rw [h1] at h; cases h; exact .inl rfl
    · rw [h1, execBuild, command_runs _ _ he] at h
      split at h
      · cases h; exact .inl rfl
      · rename_i hr
        cases h
        exact .inr (.inl ⟨by simpa using hr, rfl⟩)
    · rw [h1, command_runs _ _ he] at h
      obtain ⟨_, ht⟩ | ⟨_, _, ht⟩ | ⟨hr, X, sl, hX, hs, ht⟩ := prologue_cases h
      · exact .inr (.inr (.inl ⟨_, by decide, ht⟩))
      · exact .inr (.inr (.inl ⟨_, by decide, ht⟩))
      · exact .inr (.inr (.inr ⟨he, hr, v, X, sl, hX, hs, ht⟩))
    · rw [h1, reservedWord, command_runs _ _ he] at h
      cases h
      exact .inr (.inr (.inl ⟨_, by decide, rfl⟩))
  · refine .inl ?_
    obtain h1 | h1 | ⟨v, h1⟩ | h1 := exec_of_encode_cmd hw s
    all_goals rw [h1] at h
    · cases h; rfl
    · rw [execBuild, command_ignored _ _ he] at h; cases h; rfl
    · rw [command_ignored _ _ he] at h; cases h; rfl
    · rw [reservedWord, command_ignored _ _ he] at h; cases h; rfl

/-- The acting part of a step: what it fetches, carried out. -/
theorem step_of_takeTurn {s t : State} (h : s.takeTurn = .ok t) : step s = perform (fetch t) := by
  simp [step, h]

/-- A step of an instance with a run in progress and a byte left is the byte step. -/
theorem perform_fetch_byte {s : State} {r : Run} {b : Byte} (hr : s.inst.run = some r)
    (hb : r.slice[s.inst.idx]? = some b) : perform (fetch s) = byteStep b s := by
  obtain ⟨i, hi, he⟩ := Laws.decodeByte_total b
  obtain ⟨hlt, _⟩ := List.getElem?_eq_some_iff.mp hb
  simp only [fetch, hr, fetchByte, bytesRemain_eq, hlt, decide_true, if_true, hb, Fetched.ofDecoded, hi, perform]
  exact exec_of_encode_byte he s

/-- A step of an instance with a run in progress and no byte left is the epilogue. -/
theorem perform_fetch_end {s : State} {r : Run} (hr : s.inst.run = some r) (hb : r.slice.length ≤ s.inst.idx) :
    perform (fetch s) = .next (s.finishRun r.variant) := by
  have hlt : ¬ s.inst.idx < r.slice.length := Nat.not_lt.mpr hb
  simp [fetch, hr, fetchByte, bytesRemain_eq, hlt, perform]

/-- A step of an idle instance makes its host's next move. -/
theorem perform_fetch_move {s : State} {m : HostMove} {ms : List HostMove} (hr : s.inst.run = none)
    (hm : s.inst.moves = m :: ms) : perform (fetch s) = perform (hostMove m (s.setMoves ms)) := by
  simp [fetch, hr, hm]

/-- A step of an idle instance whose host makes no move changes nothing (R235). -/
theorem perform_fetch_idle {s : State} (hr : s.inst.run = none) (hm : s.inst.moves = []) :
    perform (fetch s) = .next s := by
  simp [fetch, hr, hm, perform]

/-- Everything a host move can do to the state when it answers a next state. -/
theorem hostMove_cases {m : HostMove} {s t : State} (h : perform (hostMove m s) = .next t) :
    (∃ w i, m = .writeCmd w ∧ decodeCmd w = some i ∧ exec i s = .next t) ∨
    (m = .reset ∧ s.otherRuns = false ∧ t = s.resetAll) ∨
    (∃ c, m = .writeInit c ∧ t = s.setInit c) ∨
    (∃ n, m = .writeLen n ∧ Config.lenFits s.params n = true ∧ t = s.setLen n) ∨
    (∃ bytes, m = .supply bytes ∧ t = s.setInput (Memory.ofBytesAt 0 bytes)) ∨
    (∃ i b, m = .putByte i b ∧ t = s.setInput (s.inst.input.write i b)) ∨
    (∃ r q v, m = .read r ∧ t = s.setReadOut q v) ∨
    (m = .carryResult ∧ s.inst.done = true ∧
      t = (s.setReadOut .result s.inst.result.toNat).setInit s.inst.result) := by
  cases m with
  | writeCmd w =>
    obtain ⟨i, hi, _⟩ := Laws.decodeCmd_total w
    simp only [hostMove, Fetched.ofDecoded, hi, perform] at h
    exact .inl ⟨w, i, rfl, hi, h⟩
  | reset =>
    simp only [hostMove, perform] at h
    obtain ⟨ho, he⟩ | ⟨_, he⟩ := doReset_cases s
    · rw [he] at h; cases h; exact .inr (.inl ⟨rfl, ho, rfl⟩)
    · rw [he] at h; cases h
  | writeInit c => cases h; exact .inr (.inr (.inl ⟨c, rfl, rfl⟩))
  | writeLen n =>
    obtain ⟨hf, ht⟩ := hostWriteLen_cases h
    exact .inr (.inr (.inr (.inl ⟨n, rfl, hf, ht⟩)))
  | writeStatus v => cases h
  | writeResult v => cases h
  | supply bytes => cases h; exact .inr (.inr (.inr (.inr (.inl ⟨bytes, rfl, rfl⟩))))
  | putByte i b => cases h; exact .inr (.inr (.inr (.inr (.inr (.inl ⟨i, b, rfl, rfl⟩)))))
  | read r =>
    obtain ⟨q, v, ht⟩ := hostRead_cases h
    exact .inr (.inr (.inr (.inr (.inr (.inr (.inl ⟨r, q, v, rfl, ht⟩))))))
  | carryResult =>
    obtain ⟨hd, ht⟩ := hostCarry_cases h
    exact .inr (.inr (.inr (.inr (.inr (.inr (.inr ⟨rfl, hd, ht⟩))))))

/-- Everything the acting instance can do in a step that answers a next state: a byte step, the epilogue, nothing, or its
host's next move. -/
theorem perform_fetch_cases {u t : State} (h : perform (fetch u) = .next t) :
    (∃ r b, u.inst.run = some r ∧ r.slice[u.inst.idx]? = some b ∧ byteStep b u = .next t) ∨
    (∃ r, u.inst.run = some r ∧ r.slice.length ≤ u.inst.idx ∧ t = u.finishRun r.variant) ∨
    (u.inst.run = none ∧ u.inst.moves = [] ∧ t = u) ∨
    (∃ m ms, u.inst.run = none ∧ u.inst.moves = m :: ms ∧ perform (hostMove m (u.setMoves ms)) = .next t) := by
  cases hr : u.inst.run with
  | some r =>
    by_cases hl : u.inst.idx < r.slice.length
    · have hb : r.slice[u.inst.idx]? = some r.slice[u.inst.idx] := by simp [hl]
      rw [perform_fetch_byte hr hb] at h
      exact .inl ⟨r, _, rfl, hb, h⟩
    · rw [perform_fetch_end hr (by omega)] at h
      cases h
      exact .inr (.inl ⟨r, rfl, by omega, rfl⟩)
  | none =>
    cases hm : u.inst.moves with
    | nil =>
      rw [perform_fetch_idle hr hm] at h
      cases h
      exact .inr (.inr (.inl ⟨rfl, rfl, rfl⟩))
    | cons m ms =>
      rw [perform_fetch_move hr hm] at h
      exact .inr (.inr (.inr ⟨m, ms, rfl, rfl, h⟩))

end Sys2Proof.Machine
end

