-- ==== Sys2Proof/Laws/Safety.lean ====
section
/-! SUPPORT. The small lemmas of the terms of Safety.lean. -/

namespace Sys2Proof.Safety

open Sys2Proof.Machine

theorem carries_raw {v : Variant} (h : v.rawState = true) (i : Inst) (X : DState) : Carries v i X ↔ i.s = code X := by
  simp [Carries, h]

theorem carries_premul {v : Variant} (h : v.rawState = false) (i : Inst) (X : DState) :
    Carries v i X ↔ shiftAmount i.off = premulLoad (code X) := by
  simp [Carries, h]

/-- Whichever register a run carries, the epilogue decodes it to the state's code (R203). -/
theorem finalCode_of_carries {v : Variant} {i : Inst} {X : DState} (h : Carries v i X) : finalCode v i = code X := by
  cases hv : v.rawState with
  | true => simpa [finalCode, hv] using (carries_raw hv i X).mp h
  | false => simpa [finalCode, hv] using premulDecode_of_carries _ _ ((carries_premul hv i X).mp h)

/-- A run that has just begun carries its initial state (R202). -/
theorem carries_beginRun (st : State) (v : Variant) (sl : List Byte) (X : DState) (h : st.inst.init = code X) :
    Carries v (st.beginRun v sl).inst X := by
  cases hv : v.rawState with
  | true => rw [carries_raw hv, State.beginRun_raw _ _ _ hv, h]
  | false =>
    rw [carries_premul hv, State.beginRun_premul _ _ _ hv, h]
    exact shiftAmount_load X

theorem stepN_succ_of_next {s t : State} (k : Nat) (h : step s = .next t) : stepN (k + 1) s = stepN k t := by
  simp [stepN, h]

/-- Steps compose. -/
theorem stepN_add {s t : State} (j k : Nat) (h : stepN j s = .next t) : stepN (j + k) s = stepN k t := by
  induction j generalizing s with
  | zero =>
    cases h
    simp
  | succ j ih =>
    rw [Nat.succ_add]
    simp only [stepN] at h ⊢
    split at h
    · exact ih h
    · cases h
    · cases h

/-- The steps counted here are the runs of the host's interface. -/
theorem stepN_eq_core_run (k : Nat) (s : State) : stepN k s = Host.Core.run Sys2Proof.core k s := by
  induction k generalizing s with
  | zero => rfl
  | succ k ih =>
    have hc : Sys2Proof.core.step s = step s := rfl
    simp only [stepN, Host.Core.run]
    rw [hc]
    cases step s with
    | next t => exact ih t
    | fault f => rfl
    | refused r => rfl

end Sys2Proof.Safety
end

