-- ==== Sys2Proof/Tests/Slice0.lean ====
section
/-! SUPPORT. Tests. Expected values are transcribed from the spec, mostly from spec/95_test_vectors.md (V1 to V101), whose ids
the comments give; none is the model's own answer pasted back. The last part shows, for each statement that has hypotheses,
a concrete case that meets them. -/

namespace Sys2Proof.Tests

open Sys2Proof.Machine Sys2Proof.Safety

/-! ### Small states -/

/-- The block after `RESET; BUILD` (V81). -/
def built : State := State.reset.installTables

/-- A run of variant `v` on two bytes that has consumed one of them and carries the state `X`. -/
def running (v : Variant) (X : DState) : State :=
  { built with inst := { built.inst with
    init := 1, initSet := true, len := 2, lenSet := true, s := code X, off := premulLoad (code X), idx := 1
    run := some ⟨v, [0xC3, 0xA9]⟩, input := [(0, 0xC3), (1, 0xA9)] } }

/-- `built` with `INIT`, the one byte `b` in the buffer, and the moves of its host. -/
def loaded (c : Code) (b : Byte) (ms : List HostMove) : State :=
  { built with inst := { built.inst with
    init := c, initSet := true, len := 1, lenSet := true, input := [(0, b)], moves := ms } }

/-- `built` with a list of moves. -/
def withMoves (ms : List HostMove) : State := built.setMoves ms

/-- `built` with a recorded fault. -/
def faulted (e : ErrCode) : State := { built with inst := { built.inst with err := e } }

/-- `built` after a run whose result is `X`. -/
def finished (X : DState) (ms : List HostMove) : State :=
  { built with inst := { built.inst with done := true, result := code X, moves := ms } }

/-- Two instances; the other one is numbered 1 and its run is `r`. -/
def two (r : Option Run) (ms : List HostMove) (turns : List Nat) : State :=
  { withMoves ms with parked := [{ Inst.initial 1 with run := r }], turns := turns }

/-- What a predicate says of a next state; false of a fault or a refusal. -/
def nextIs (o : Host.Outcome State Fault Refusal) (p : State → Bool) : Bool :=
  match o with
  | .next t => p t
  | .fault _ => false
  | .refused _ => false

/-- The state code carried after executing `i` in the run `running v X`. -/
def codeAfter (v : Variant) (X : DState) (i : Instr) (c : Code) : Bool :=
  nextIs (exec i (running v X)) fun t => finalCode v t.inst == c

/-- The 64 bits of `OFF` after executing `i` in the run `running v X`. -/
def offIs (v : Variant) (X : DState) (i : Instr) (o : Row) : Bool :=
  nextIs (exec i (running v X)) fun t => t.inst.off == o

/-- The `STATUS` word after `i`. -/
def statusIs (i : Instr) (s : State) (w : BitVec 6) : Bool := nextIs (exec i s) fun t => statusWord t == w

/-! ### Decoding (R82, R83): words written from the patterns of the tables, one for each constructor -/

theorem test_decode_byte_words :
    [0b00000000, 0b10000000, 0b10010000, 0b10100000, 0b11000001, 0b11000010, 0b11000111, 0b11001000].map decodeByte =
      [some (.ascii 0x00), some (.cont80 0x80), some (.cont90 0x90), some (.contA0 0xA0), some (.illegalC0 0xC1),
        some (.lead2C2 0xC2), some (.lead2C4 0xC7), some (.lead2C8 0xC8)] := by decide

theorem test_decode_byte_words_2 :
    [0b11010000, 0b11100000, 0b11100001, 0b11100011, 0b11100100, 0b11101011, 0b11101100, 0b11101101].map decodeByte =
      [some (.lead2D0 0xD0), some .lead3Low, some .lead3E1, some (.lead3E2 0xE3), some (.lead3E4 0xE4),
        some (.lead3E8 0xEB), some .lead3EC, some .lead3High] := by decide

theorem test_decode_byte_words_3 :
    [0b11101111, 0b11110000, 0b11110001, 0b11110011, 0b11110100, 0b11110101, 0b11110111, 0b11111000].map decodeByte =
      [some (.lead3EE 0xEF), some .lead4Low, some .lead4F1, some (.lead4F2 0xF3), some .lead4High, some .illegalF5,
        some (.illegalF6 0xF7), some (.illegalF8 0xF8)] := by decide

theorem test_decode_cmd_words :
    [0b00000, 0b01000, 0b10000, 0b10001, 0b10010, 0b10011, 0b10100, 0b00001].map decodeCmd =
      [some .nop, some .build, some .validateDs, some .validateDb, some .validateP4, some .validateP6,
        some .validateP6u, some .reserved01] := by decide

theorem test_decode_cmd_words_2 :
    [0b00011, 0b00111, 0b01001, 0b01010, 0b01111, 0b10101, 0b10110, 0b11111].map decodeCmd =
      [some (.reserved02 3), some (.reserved04 7), some .reserved09, some (.reserved0A 10), some (.reserved0C 15),
        some .reserved15, some (.reserved16 22), some (.reserved18 31)] := by decide

/-- A number wider than its format is no word (R80: 8 bits and 5 bits). -/
theorem test_decode_rejects_by_name :
    decodeNat .byte 256 = .error (.wordTooWide .byte) ∧ decodeNat .cmd 32 = .error (.wordTooWide .cmd) ∧
    decodeNat .byte 0xED = .ok .lead3High ∧ decodeNat .cmd 0x14 = .ok .validateP6u := ⟨rfl, rfl, rfl, rfl⟩

/-- Words of the opcode table by number: a byte from 0x20, a command word below it (log entry 12). -/
theorem test_decode_table_words :
    decodeTableWord 8 0xF4 = some .lead4High ∧ decodeTableWord 8 0x41 = some (.ascii 0x41) ∧
    decodeTableWord 8 0x10 = some .validateDs ∧ decodeTableWord 8 0x1E = some (.reserved18 0x1E) ∧
    decodeTableWord 16 0x0108 = some .build ∧ decodeTableWord 0 0 = none := by decide

/-! ### WellFormed: each constructor that carries a word refuses the word before or after its row -/

theorem test_ill_formed_bytes :
    [Instr.ascii 0x80, .cont80 0x7F, .cont80 0x90, .cont90 0x8F, .cont90 0xA0, .contA0 0x9F, .contA0 0xC0,
      .illegalC0 0xC2, .lead2C2 0xC1, .lead2C2 0xC4, .lead2C4 0xC3, .lead2C4 0xC8, .lead2C8 0xC7, .lead2C8 0xD0,
      .lead2D0 0xCF, .lead2D0 0xE0].map Instr.wellFormed = List.replicate 16 false := by decide

theorem test_ill_formed_bytes_2 :
    [Instr.lead3E2 0xE1, .lead3E2 0xE4, .lead3E4 0xE3, .lead3E4 0xE8, .lead3E8 0xE7, .lead3E8 0xEC, .lead3EE 0xED,
      .lead3EE 0xF0, .lead4F2 0xF1, .lead4F2 0xF4, .illegalF6 0xF5, .illegalF6 0xF8,
      .illegalF8 0xF7].map Instr.wellFormed = List.replicate 13 false := by decide

theorem test_ill_formed_cmds :
    [Instr.reserved02 0x01, .reserved02 0x04, .reserved04 0x03, .reserved04 0x08, .reserved0A 0x09, .reserved0A 0x0C,
      .reserved0C 0x0B, .reserved0C 0x10, .reserved16 0x15, .reserved16 0x18,
      .reserved18 0x17].map Instr.wellFormed = List.replicate 11 false := by decide

/-! ### The transition function and the tables -/

/-- Section 2.1 of the vectors, the edges of the restricted rows, and V17 to V26. -/
theorem test_delta_edges :
    [delta .ok 0xC1, delta .ok 0xC2, delta .ok 0xDF, delta .ok 0xE0, delta .ok 0xEC, delta .ok 0xED, delta .ok 0xF4,
      delta .ok 0xF5, delta .lead3Low 0x9F, delta .lead3Low 0xA0, delta .lead3High 0x9F, delta .lead3High 0xA0,
      delta .lead4Low 0x8F, delta .lead4Low 0x90, delta .lead4High 0x8F, delta .lead4High 0x90, delta .tail1 0x41,
      delta .tail1 0xC3, delta .fail 0x41] =
      [.fail, .tail1, .tail1, .lead3Low, .tail2, .lead3High, .lead4High, .fail, .fail, .tail1, .tail1, .fail, .fail,
        .tail2, .tail2, .fail, .fail, .fail, .fail] := by decide

/-- Section 2.2 of the vectors: `ROW4` at class edges. -/
theorem test_row4_contents :
    [0x7F, 0x80, 0x90, 0xBF, 0xC0, 0xDF, 0xE0, 0xEF, 0xED, 0xF0, 0xF3, 0xF4].map Tables.built.readRow4 =
      [some 0x10, some 0x302032100, some 0x32032100, some 0x30232100, some 0, some 0x20, some 0x50, some 0x30,
        some 0x60, some 0x70, some 0x40, some 0x80] := by decide

/-- Section 2.2 of the vectors: `ROW6P` at class edges. -/
theorem test_row6p_contents :
    [0x7F, 0x80, 0x90, 0xBF, 0xC0, 0xDF, 0xE0, 0xEF, 0xED, 0xF0, 0xF3, 0xF4].map Tables.built.readRow6p =
      [some 0x180, some 0x1200C012306000, some 0x48C012306000, some 0x480312306000, some 0, some 0x300, some 0x780,
        some 0x480, some 0x900, some 0xA80, some 0x600, some 0xC00] := by decide

/-- Section 2.2 of the vectors: the column of byte 0x80 in both dense tables. -/
theorem test_dense_columns :
    [0, 1, 2, 3, 4, 5, 6, 7, 8].map (fun c => Tables.built.readSb c 0x80) =
      [0, 0, 1, 2, 3, 0, 2, 0, 3].map some ∧
    [0, 1, 2, 3, 4, 5, 6, 7, 8].map (Tables.built.readBs 0x80) = [0, 0, 1, 2, 3, 0, 2, 0, 3].map some := by
  decide

/-- R21 and R38: code 9 has no entry in the dense tables, and unbuilt tables hold none. -/
theorem test_absent_entries :
    Tables.built.readSb 9 0x41 = none ∧ Tables.built.readBs 0x41 9 = none ∧ Tables.empty.readRow4 0x41 = none := by
  decide

/-! ### The byte words (one step each) -/

theorem test_ascii : codeAfter .ds .ok (.ascii 0x48) 1 = true ∧ codeAfter .p4 .tail1 (.ascii 0x41) 0 = true := by
  decide  -- V9, V45

/-- V73: the shift amount is masked to six bits. -/
theorem test_ascii_masks_stale_bits :
    nextIs (exec (.ascii 0x41) ((running .p6 .ok).stepOff 0x1200C012306)) (fun t => t.inst.off == 6) = true := by
  decide

theorem test_cont80 : codeAfter .p4 .lead4High (.cont80 0x8F) 3 = true ∧ codeAfter .db .lead4Low (.cont80 0x8F) 0 = true := by
  decide  -- V50, V23

/-- V12 and V68: all 64 bits of `OFF`. -/
theorem test_cont80_off :
    offIs .p6 .tail2 (.cont80 0x82) 0x48030048C = true ∧ offIs .p6u .ok (.cont80 0x80) 0x48030048C180 = true := by
  decide

theorem test_cont90 : codeAfter .ds .lead4High (.cont90 0x90) 0 = true ∧ codeAfter .p4 .lead3High (.cont90 0x9F) 2 = true := by
  decide  -- V6, V47

theorem test_cont90_off : offIs .p6 .lead3Low (.cont90 0x9F) 0x12300 = true := by
  decide  -- V59

theorem test_contA0 : codeAfter .db .lead3Low (.contA0 0xA0) 2 = true ∧ codeAfter .p4 .lead3High (.contA0 0xA0) 0 = true := by
  decide  -- V4, V48

theorem test_contA0_off : offIs .p6 .tail1 (.contA0 0xA9) 0x480312306 = true := by
  decide  -- V10

theorem test_illegal_rows :
    codeAfter .ds .ok (.illegalC0 0xC1) 0 = true ∧ codeAfter .p4 .ok .illegalF5 0 = true ∧
    codeAfter .db .tail1 (.illegalF6 0xF6) 0 = true ∧ offIs .p6 .ok (.illegalF8 0xFF) 0 = true := by
  decide  -- V1, V20, R137, V69

theorem test_lead2_rows :
    codeAfter .ds .ok (.lead2C2 0xC3) 2 = true ∧ codeAfter .db .tail1 (.lead2C4 0xC4) 0 = true ∧
    codeAfter .p4 .ok (.lead2C8 0xCF) 2 = true ∧ offIs .p6 .ok (.lead2D0 0xDF) 0xC = true := by
  decide  -- V10, R138, V2, V57

theorem test_lead3_rows :
    codeAfter .ds .ok .lead3E1 3 = true ∧ codeAfter .db .ok (.lead3E2 0xE2) 3 = true ∧
    codeAfter .p4 .ok (.lead3E4 0xE7) 3 = true ∧ codeAfter .ds .tail2 (.lead3E8 0xE8) 0 = true ∧
    codeAfter .p4 .fail .lead3EC 0 = true ∧ offIs .p6u .ok (.lead3EE 0xEF) 0x12 = true := by
  decide  -- R114, V12, R140, R140, R127, V62

theorem test_restricted_leads :
    offIs .p6 .ok .lead3Low 0x1E = true ∧ offIs .p6 .ok .lead3High 0x24 = true ∧ offIs .p6 .ok .lead4Low 0x2A = true ∧
    offIs .p6 .ok .lead4High 0x30 = true ∧ codeAfter .ds .lead3Low .lead3Low 0 = true := by
  decide  -- V58, V60, V63, V13, V26

theorem test_lead4_rows : offIs .p6 .ok .lead4F1 0x18 = true ∧ codeAfter .p4 .ok (.lead4F2 0xF3) 4 = true := by
  decide  -- V65, V40

/-- A byte word without a run has nothing to act on; unbuilt tables hold no entry. -/
theorem test_byte_without_run :
    exec (.ascii 0x41) State.reset = .refused .noRunInProgress ∧
    exec (.ascii 0x41) { running .ds .ok with tables := Tables.empty } = .fault .tableEntryAbsent := ⟨rfl, rfl⟩

/-! ### The commands -/

/-- V80 and R201. -/
theorem test_nop : statusIs .nop State.reset 0x00 = true ∧ statusIs .nop (finished .ok []) 0x13 = true := by decide

/-- V81 and V28. -/
theorem test_build :
    statusIs .build State.reset 0x01 = true ∧ statusIs .build (finished .ok []) 0x13 = true ∧
    nextIs (exec .build State.reset) (fun t => t.tables.readRow4 0x41 == some 0x10) = true := by decide

/-- V84: BUILD is ignored while a fault is recorded. -/
theorem test_build_ignored :
    statusIs .build { State.reset with inst := { State.reset.inst with err := .tablesNotBuilt } } 0x04 = true := by decide

/-- V83: VALIDATE before BUILD, for the five variants. -/
theorem test_validate_unbuilt :
    [Instr.validateDs, .validateDb, .validateP4, .validateP6, .validateP6u].map (fun i => statusIs i State.reset 0x04) =
      [true, true, true, true, true] := by decide

/-- Operands that the host has not written are the reset values that log entry 1 names: a VALIDATE runs on the empty slice
from `Fail`, and a read of `INIT` returns 0 (log entry 5; the numbers are the model's, not the spec's). -/
theorem test_unwritten_operands :
    nextIs (exec .validateDs built) (fun t => t.inst.run == some ⟨.ds, []⟩ && t.inst.s == 0 && !t.inst.initSet) = true ∧
    nextIs (step (withMoves [.read .init])) (fun t => t.inst.readOut == some (.init, 0)) = true := by decide

/-- V87, V88 and V89: `INIT` 9 and 15 are illegal, 8 is legal. -/
theorem test_validate_init_bounds :
    statusIs .validateP6 (loaded 9 0x41 []) 0x09 = true ∧ statusIs .validateDs (loaded 15 0x41 []) 0x09 = true ∧
    nextIs (exec .validateP4 (loaded 8 0x80 [])) (fun t => t.inst.s == 8 && t.inst.idx == 0) = true := by decide

/-- V10 and V98: `OFF` starts at six times `INIT`; `S` starts at `INIT` and `DONE` is cleared (R202). -/
theorem test_validate_loads :
    nextIs (exec .validateP6 (loaded 1 0xC3 [])) (fun t => t.inst.off == 6 && t.inst.run == some ⟨.p6, [0xC3]⟩) = true ∧
    nextIs (exec .validateP6u (loaded 2 0xA9 [])) (fun t => t.inst.off == 0xC) = true ∧
    nextIs (exec .validateDb { loaded 1 0xC3 [] with inst := { (loaded 1 0xC3 []).inst with done := true } })
      (fun t => t.inst.s == 1 && !t.inst.done) = true := by decide

/-- V92 to V96: reserved words. -/
theorem test_reserved_words :
    [Instr.reserved01, .reserved02 2, .reserved04 7, .reserved09, .reserved0A 10, .reserved0C 15, .reserved16 22,
      .reserved18 31].map (fun i => statusIs i built 0x0D) = List.replicate 8 true ∧
    statusIs .reserved15 State.reset 0x0C = true ∧ statusIs (.reserved04 7) (finished .ok []) 0x0D = true ∧
    statusIs (.reserved18 31) (faulted .illegalInitialState) 0x09 = true := by decide

/-! ### The step, the epilogue and the host -/

/-- V12 and V13: the epilogue's decode of `OFF`, and `STATUS` after it. -/
theorem test_epilogue :
    nextIs (step ((running .p6 .ok).stepOff 0x48030048C)) (fun t => t.inst.result == 2 && statusWord t == 0x03) = true ∧
    nextIs (step ((running .ds .ok).stepS 0)) (fun t => t.inst.result == 0 && statusWord t == 0x23) = true ∧
    nextIs (step ((running .p6u .ok).stepOff 0x480312306)) (fun t => t.inst.result == 1 && statusWord t == 0x13) = true := by
  decide

/-- The unrolled loop's boundaries of V15: the loop tests let exactly `LEN` bytes be consumed. -/
theorem test_unrolled_bounds :
    [0, 1, 7, 8, 9, 15, 16, 17].map (fun n => ((List.range 40).filter (bytesRemain .p6u · n)).length) =
      [0, 1, 7, 8, 9, 15, 16, 17] := by decide

/-- V79 and V86: RESET clears the fault. V100: with `AUTO_BUILD` the tables are there. -/
theorem test_reset :
    nextIs (step ((faulted .illegalCommand).setMoves [.reset])) (fun t => statusWord t == 0x00) = true ∧
    nextIs (step { (withMoves [.reset]) with params := { autoBuild := true, idxWidth := none } })
      (fun t => statusWord t == 0x01 && t.tables.readRow6p 0x41 == some 0x180) = true := by decide

/-- V87: `INIT` still reads 9; V79: `RESULT` has no value; R93 (d): `INIT <- RESULT`. -/
theorem test_host_reads :
    nextIs (step (loaded 9 0x41 [.read .init])) (fun t => t.inst.readOut == some (.init, 9)) = true ∧
    step (withMoves [.read .result]) = .refused .resultHasNoValue ∧
    nextIs (step (finished .tail1 [.carryResult])) (fun t => t.inst.init == 2 && t.inst.initSet) = true := ⟨by decide, rfl, by decide⟩

/-- A buffer is read back byte by byte; an index that holds none stops the prologue. -/
theorem test_input :
    ((Memory.ofBytesAt 0 [0xE2, 0x82]).write 1 0x83).read 1 = some 0x83 ∧
    (Memory.write [(0, 0xE2), (2, 0xAC)] 1 0x82) = [(0, 0xE2), (1, 0x82), (2, 0xAC)] ∧
    exec .validateDs { built with inst := { built.inst with initSet := true, init := 1, lenSet := true, len := 1 } } =
      .fault .inputByteAbsent := ⟨by decide, by decide, rfl⟩

/-- `withFetchWord` places a command word and a byte where the next step fetches (log entry 11). -/
theorem test_withFetchWord :
    nextIs (step (State.reset.withFetchWord 8 0x08)) (fun t => t.tblReady) = true ∧
    nextIs (step (State.reset.withFetchWord 8 0x01)) (fun t => statusWord t == 0x0C) = true ∧
    nextIs (step (State.reset.withFetchWord 8 0xED)) (fun t => t.inst.s == 6 && t.inst.idx == 1) = true ∧
    nextIs (step ((running .p4 .tail1).withFetchWord 8 0xA9)) (fun t => t.inst.s == 1 && t.inst.idx == 2) = true := by
  decide

/-! ### A case that meets the hypotheses of each statement that has some -/

theorem test_hyps_DecodeOfEncodeIsIdentity : (Instr.cont80 0x8F).WellFormed ∧ (Instr.reserved18 0x18).WellFormed := by decide

/-- The last byte of the slice, and a byte inside a group that the unrolled variant has entered. -/
theorem test_hyps_StepExecutesFetchedByteWord :
    (running .ds .tail1).takeTurn = .ok (running .ds .tail1) ∧
    (running .ds .tail1).inst.run = some ⟨.ds, [0xC3, 0xA9]⟩ ∧ bytesRemain .ds 1 2 = true ∧ bytesRemain .p6u 7 8 = true ∧
    ([0xC3, 0xA9] : List Byte)[1]? = some 0xA9 ∧ decodeByte 0xA9 = some (.contA0 0xA9) :=
  ⟨rfl, rfl, rfl, rfl, rfl, rfl⟩

theorem test_hyps_StepExecutesWrittenCommand :
    (withMoves [.writeCmd 0x08]).takeTurn = .ok (withMoves [.writeCmd 0x08]) ∧
    (withMoves [.writeCmd 0x08]).inst.run = none ∧ (withMoves [.writeCmd 0x08]).inst.moves = [.writeCmd 0x08] ∧
    decodeCmd 0x08 = some .build := ⟨rfl, rfl, rfl, rfl⟩

/-- Both forms of the final decode. -/
theorem test_hyps_StepAtEndOfSliceIsEpilogue :
    ((running .p6 .tail1).stepOff 6).takeTurn = .ok ((running .p6 .tail1).stepOff 6) ∧
    ((running .p6 .tail1).stepOff 6).inst.run = some ⟨.p6, [0xC3, 0xA9]⟩ ∧ ((running .p6 .tail1).stepOff 6).inst.idx = 2 ∧
    ((running .db .tail1).stepS 1).takeTurn = .ok ((running .db .tail1).stepS 1) ∧
    ((running .db .tail1).stepS 1).inst.run = some ⟨.db, [0xC3, 0xA9]⟩ ∧ ((running .db .tail1).stepS 1).inst.idx = 2 :=
  ⟨rfl, rfl, rfl, rfl, rfl, rfl⟩

theorem test_hyps_IdleStepHoldsState : built.takeTurn = .ok built ∧ built.inst.run = none ∧ built.inst.moves = [] :=
  ⟨rfl, rfl, rfl⟩

/-- A turn for the other instance, one for the acting instance, and one for a number that none has. -/
theorem test_hyps_TurnOnlyChoosesActingInstance :
    (two none [] [1]).turns = [1] ∧ (two none [] [1]).focus 1 ≠ none ∧ (two none [] [0]).focus 0 = some (two none [] [0]) ∧
    (∃ t, (two none [] [1]).takeTurn = .ok t) ∧
    ∀ j ∈ (two none [] [2]).inst :: (two none [] [2]).parked, j.id ≠ 2 :=
  ⟨rfl, by decide, rfl, ⟨_, rfl⟩, by decide⟩

/-- A row at its last byte, and a pair that no row covers. -/
theorem test_hyps_DeltaIsTheRowTable :
    (DState.lead3High, 0x80, 0x9F, DState.tail1) ∈ grammarRows ∧ (0x9F : Byte).toNat ≤ 0x9F ∧
    (grammarRows.any fun r => r.1 == .ok && decide (r.2.1 ≤ 0xC1) && decide (0xC1 ≤ r.2.2.1)) = false := by decide

theorem test_hyps_DeltaStarComposes : deltaStar .ok [0xC0] = .fail := by decide

theorem test_hyps_SequencesCloseWithinFourBytes : 4 ≤ ([0xF4, 0x8F, 0xBF, 0xBF] : List Byte).length := by decide

/-- The state of every class statement: built tables and a run that carries `X`, in each variant. -/
theorem test_running_carries (v : Variant) (X : DState) :
    (running v X).tables = Tables.built ∧ (running v X).inst.run = some ⟨v, [0xC3, 0xA9]⟩ ∧ Carries v (running v X).inst X := by
  refine ⟨rfl, rfl, ?_⟩
  cases v <;> first | rfl | exact shiftAmount_load X

theorem test_hyps_AsciiWordKeepsOkOnly :
    inRange 0x00 0x7F 0x7F = true ∧ encode (.ascii 0x7F) = .byte 0x7F ∧ (running .ds .ok).tables = Tables.built ∧
    (running .ds .ok).inst.run = some ⟨.ds, [0xC3, 0xA9]⟩ ∧ Carries .ds (running .ds .ok).inst .ok :=
  ⟨by decide, rfl, test_running_carries .ds .ok⟩

theorem test_hyps_Cont80WordConsumesTailByte :
    inRange 0x80 0x8F 0x80 = true ∧ encode (.cont80 0x80) = .byte 0x80 ∧ (running .p4 .lead4High).tables = Tables.built ∧
    (running .p4 .lead4High).inst.run = some ⟨.p4, [0xC3, 0xA9]⟩ ∧ Carries .p4 (running .p4 .lead4High).inst .lead4High :=
  ⟨by decide, rfl, test_running_carries .p4 .lead4High⟩

theorem test_hyps_Cont90WordConsumesTailByte :
    inRange 0x90 0x9F 0x9F = true ∧ encode (.cont90 0x9F) = .byte 0x9F ∧ (running .p6 .lead3High).tables = Tables.built ∧
    (running .p6 .lead3High).inst.run = some ⟨.p6, [0xC3, 0xA9]⟩ ∧ Carries .p6 (running .p6 .lead3High).inst .lead3High :=
  ⟨by decide, rfl, test_running_carries .p6 .lead3High⟩

theorem test_hyps_ContA0WordConsumesTailByte :
    inRange 0xA0 0xBF 0xBF = true ∧ encode (.contA0 0xBF) = .byte 0xBF ∧ (running .p6u .tail1).tables = Tables.built ∧
    (running .p6u .tail1).inst.run = some ⟨.p6u, [0xC3, 0xA9]⟩ ∧ Carries .p6u (running .p6u .tail1).inst .tail1 :=
  ⟨by decide, rfl, test_running_carries .p6u .tail1⟩

theorem test_hyps_IllegalWordExecutesToFail :
    inRange 0xF8 0xFF 0xFF = true ∧ encode (.illegalF8 0xFF) = .byte 0xFF ∧ (running .db .ok).tables = Tables.built ∧
    (running .db .ok).inst.run = some ⟨.db, [0xC3, 0xA9]⟩ ∧ Carries .db (running .db .ok).inst .ok :=
  ⟨by decide, rfl, test_running_carries .db .ok⟩

theorem test_hyps_Lead2WordEntersTail1 :
    inRange 0xC2 0xC3 0xC2 = true ∧ encode (.lead2C2 0xC2) = .byte 0xC2 ∧ (running .p6 .ok).tables = Tables.built ∧
    (running .p6 .ok).inst.run = some ⟨.p6, [0xC3, 0xA9]⟩ ∧ Carries .p6 (running .p6 .ok).inst .ok :=
  ⟨by decide, rfl, test_running_carries .p6 .ok⟩

theorem test_hyps_Lead3LowWordEntersLead3Low :
    decodeByte 0xE0 = some (.lead3Low) ∧ encode (.lead3Low) = .byte 0xE0 ∧ (running .p6 .ok).tables = Tables.built ∧
    (running .p6 .ok).inst.run = some ⟨.p6, [0xC3, 0xA9]⟩ ∧ Carries .p6 (running .p6 .ok).inst .ok :=
  ⟨by decide, rfl, test_running_carries .p6 .ok⟩

theorem test_hyps_Lead3WordEntersTail2 :
    inRange 0xEE 0xEF 0xEF = true ∧ encode (.lead3EE 0xEF) = .byte 0xEF ∧ (running .p6 .ok).tables = Tables.built ∧
    (running .p6 .ok).inst.run = some ⟨.p6, [0xC3, 0xA9]⟩ ∧ Carries .p6 (running .p6 .ok).inst .ok :=
  ⟨by decide, rfl, test_running_carries .p6 .ok⟩

theorem test_hyps_Lead3HighWordEntersLead3High :
    decodeByte 0xED = some (.lead3High) ∧ encode (.lead3High) = .byte 0xED ∧ (running .p6 .ok).tables = Tables.built ∧
    (running .p6 .ok).inst.run = some ⟨.p6, [0xC3, 0xA9]⟩ ∧ Carries .p6 (running .p6 .ok).inst .ok :=
  ⟨by decide, rfl, test_running_carries .p6 .ok⟩

theorem test_hyps_Lead4LowWordEntersLead4Low :
    decodeByte 0xF0 = some (.lead4Low) ∧ encode (.lead4Low) = .byte 0xF0 ∧ (running .p6 .ok).tables = Tables.built ∧
    (running .p6 .ok).inst.run = some ⟨.p6, [0xC3, 0xA9]⟩ ∧ Carries .p6 (running .p6 .ok).inst .ok :=
  ⟨by decide, rfl, test_running_carries .p6 .ok⟩

theorem test_hyps_Lead4WordEntersTail3 :
    inRange 0xF2 0xF3 0xF3 = true ∧ encode (.lead4F2 0xF3) = .byte 0xF3 ∧ (running .p6 .ok).tables = Tables.built ∧
    (running .p6 .ok).inst.run = some ⟨.p6, [0xC3, 0xA9]⟩ ∧ Carries .p6 (running .p6 .ok).inst .ok :=
  ⟨by decide, rfl, test_running_carries .p6 .ok⟩

theorem test_hyps_Lead4HighWordEntersLead4High :
    decodeByte 0xF4 = some (.lead4High) ∧ encode (.lead4High) = .byte 0xF4 ∧ (running .p6 .ok).tables = Tables.built ∧
    (running .p6 .ok).inst.run = some ⟨.p6, [0xC3, 0xA9]⟩ ∧ Carries .p6 (running .p6 .ok).inst .ok :=
  ⟨by decide, rfl, test_running_carries .p6 .ok⟩

theorem test_hyps_EveryByteWordAppliesDelta :
    decodeByte 0xA9 = some (.contA0 0xA9) ∧ (running .p6u .tail1).tables = Tables.built ∧
    (running .p6u .tail1).inst.run = some ⟨.p6u, [0xC3, 0xA9]⟩ ∧ Carries .p6u (running .p6u .tail1).inst .tail1 :=
  ⟨rfl, test_running_carries .p6u .tail1⟩

/-- In each variant, over built tables and over tables that hold no value; the last code of `S`, and one above it. -/
theorem test_hyps_ByteWordReadsTheTableOfItsVariant :
    decodeByte 0x80 = some (.cont80 0x80) ∧ (∀ v, (running v .lead4High).inst.run = some ⟨v, [0xC3, 0xA9]⟩) ∧
    Tables.built.readSb 8 0x80 = some 3 ∧ Tables.built.readBs 0x80 8 = some 3 ∧
    Tables.built.readRow4 0x80 = some 0x302032100 ∧ Tables.built.readRow6p 0x80 = some 0x1200C012306000 ∧
    Tables.built.readSb 9 0x80 = none ∧ Tables.built.readBs 0x80 9 = none ∧ Tables.empty.readRow4 0x80 = none ∧
    Tables.empty.readRow6p 0x80 = none := ⟨by decide, fun _ => rfl, by decide⟩

/-- The four tables are told apart: with one of them changed, only its variant sees the change. -/
theorem test_table_of_variant :
    nextIs (exec (.ascii 0x00) { running .ds .fail with tables := { Tables.empty with denseSb := [[5]] } })
      (fun t => t.inst.s == 5) = true ∧
    nextIs (exec (.ascii 0x00) { running .db .fail with tables := { Tables.empty with denseBs := [[6]] } })
      (fun t => t.inst.s == 6) = true ∧
    nextIs (exec (.ascii 0x00) { running .p4 .fail with tables := { Tables.empty with row4 := [0x17] } })
      (fun t => t.inst.s == 7) = true ∧
    nextIs (exec (.ascii 0x00) { running .p6u .fail with tables := { Tables.empty with row6p := [0x18] } })
      (fun t => t.inst.off == 0x18) = true := by decide

/-- In a raw and in a pre-multiplied variant. -/
theorem test_hyps_ByteWordFrame :
    (Instr.cont80 0x80).format = .byte ∧ (∃ t, exec (.cont80 0x80) (running .ds .tail1) = .next t) ∧
    ∃ t, exec (.cont80 0x80) (running .p6 .tail1) = .next t :=
  ⟨rfl,
    ⟨_, byteStep_raw (b := 0x80) (st := running .ds .tail1) (r := ⟨.ds, [0xC3, 0xA9]⟩) (X := .tail1) rfl rfl rfl rfl⟩,
    ⟨_, byteStep_premul (b := 0x80) (st := running .p6 .tail1) (r := ⟨.p6, [0xC3, 0xA9]⟩) rfl rfl rfl⟩⟩

theorem test_hyps_BuildWritesEveryTableOnce :
    (faulted .illegalCommand).inst.err ≠ .none ∧ built.tblReady = true ∧ State.reset.inst.err = .none ∧
    State.reset.tblReady = false := by decide

theorem test_hyps_PhysicalEncodingsAgreeAfterBuild : State.reset.inst.err = .none ∧ State.reset.tblReady = false := by decide

/-- A step that writes a register, an epilogue whose host has RESET as its next move, and a RESET. -/
theorem test_hyps_BuiltTablesNeverChange :
    (withMoves [.writeInit 3]).tblReady = true ∧ (withMoves [.writeInit 3]).takeTurn = .ok (withMoves [.writeInit 3]) ∧
    (∃ t, step (withMoves [.writeInit 3]) = .next t) ∧ (withMoves [.reset]).inst.run = none ∧
    (withMoves [.reset]).takeTurn = .ok (withMoves [.reset]) ∧
    (∃ t, step (withMoves [.reset]) = .next t) ∧
    (((running .ds .tail1).stepS 1).setMoves [.reset]).tblReady = true ∧
    ∃ t, step (((running .ds .tail1).stepS 1).setMoves [.reset]) = .next t :=
  ⟨rfl, rfl, ⟨_, rfl⟩, rfl, rfl, ⟨_, rfl⟩, rfl, ⟨_, rfl⟩⟩

theorem test_hyps_ReservedWordRaisesIllegalCommand :
    built.inst.err = .none ∧ (0x07 : CmdWord) ∉ ([0x00, 0x08, 0x10, 0x11, 0x12, 0x13, 0x14] : List CmdWord) := by decide

/-- A command that is ignored, and a RESET. -/
theorem test_hyps_OnlyResetClearsFault :
    Instr.build.format = .cmd ∧ (faulted .illegalCommand).inst.err ≠ .none ∧
    ((faulted .illegalCommand).setMoves [.writeCmd 0x08]).takeTurn = .ok ((faulted .illegalCommand).setMoves [.writeCmd 0x08]) ∧
    ((faulted .illegalCommand).setMoves [.writeCmd 0x08]).inst.err ≠ .none ∧
    (∃ t, step ((faulted .illegalCommand).setMoves [.writeCmd 0x08]) = .next t) ∧
    ∃ t, step ((faulted .illegalCommand).setMoves [.reset]) = .next t :=
  ⟨rfl, by decide, rfl, by decide, ⟨_, rfl⟩, ⟨_, rfl⟩⟩

/-- V91, V87 and V93: `INIT` 12 with unbuilt tables, `INIT` 9 with built ones; 0x15 is a reserved word. -/
theorem test_hyps_FirstFaultOfTheOrderIsRecorded :
    (State.reset.setInit 12).inst.err = .none ∧ (State.reset.setInit 12).tblReady = false ∧
    (built.setInit 9).inst.err = .none ∧ (built.setInit 9).tblReady = true ∧
    8 < (built.setInit 9).inst.init.toNat ∧ (faulted .tablesNotBuilt).inst.err ≠ .none ∧
    decodeCmd 0x15 = some .reserved15 ∧
    (0x15 : CmdWord) ∉ ([0x00, 0x08, 0x10, 0x11, 0x12, 0x13, 0x14] : List CmdWord) := by decide

/-- The last legal `INIT` with its slice supplied, and a slice of two bytes whose last index holds none. -/
theorem test_hyps_ValidateBeginsExactlyOnSuppliedSlice :
    (loaded 8 0x80 []).inst.err = .none ∧ (loaded 8 0x80 []).tblReady = true ∧ (loaded 8 0x80 []).inst.init = code .lead4High ∧
    ([0x80] : List Byte).length = (loaded 8 0x80 []).inst.len ∧ (loaded 8 0x80 []).inst.input.read 0 = ([0x80] : List Byte)[0]? ∧
    ((loaded 8 0x80 []).setLen 2).inst.init = code .lead4High ∧ 1 < ((loaded 8 0x80 []).setLen 2).inst.len ∧
    ((loaded 8 0x80 []).setLen 2).inst.input.read 1 = none := by decide

/-- NOP, BUILD, a reserved word, and VALIDATE in a raw and in a pre-multiplied variant. -/
theorem test_hyps_CommandFrame :
    (∃ t, exec .nop built = .next t) ∧ (∃ t, exec .build State.reset = .next t) ∧
    (∃ t, exec .reserved01 built = .next t) ∧ (∃ t, exec .validateDs (loaded 1 0x41 []) = .next t) ∧
    (∃ t, exec .validateP6u (loaded 1 0x41 []) = .next t) ∧ validateInstr .p6u = .validateP6u :=
  ⟨⟨_, rfl⟩, ⟨_, rfl⟩, ⟨_, rfl⟩, ⟨_, rfl⟩, ⟨_, rfl⟩, rfl⟩

/-- The hypotheses of a VALIDATE that runs, from `Ok` and from the last state code, of a run on the empty slice, and
of one on operands not written since RESET (log entry 5). -/
theorem test_canValidate :
    CanValidate (loaded 1 0x41 []) .ok [0x41] ∧ CanValidate (loaded 8 0x80 []) .lead4High [0x80] ∧
    CanValidate (((built.setInit 1).setLen 0)) .ok [] ∧ CanValidate built .fail [] ∧ built.inst.initSet = false :=
  ⟨⟨rfl, rfl, rfl, rfl, rfl⟩, ⟨rfl, rfl, rfl, rfl, rfl⟩, ⟨rfl, rfl, rfl, rfl, rfl⟩, ⟨rfl, rfl, rfl, rfl, rfl⟩, rfl⟩

/-- Ignored, unbuilt, illegal `INIT` at its least value, and running. -/
theorem test_hyps_ValidateDsRunsToFinalState :
    (faulted .illegalCommand).inst.err ≠ .none ∧ State.reset.tblReady = false ∧ (loaded 9 0x41 []).tblReady = true ∧
    8 < (loaded 9 0x41 []).inst.init.toNat ∧ Variant.ds.rawState = true ∧ (loaded 1 0x41 []).turns = [] ∧
    CanValidate (loaded 1 0x41 []) .ok [0x41] := ⟨by decide, rfl, rfl, by decide, rfl, rfl, test_canValidate.1⟩

/-- Ignored, unbuilt, illegal `INIT` at its least value, and running. -/
theorem test_hyps_ValidateDbRunsToFinalState :
    (faulted .illegalCommand).inst.err ≠ .none ∧ State.reset.tblReady = false ∧ (loaded 9 0x41 []).tblReady = true ∧
    8 < (loaded 9 0x41 []).inst.init.toNat ∧ Variant.db.rawState = true ∧ (loaded 1 0x41 []).turns = [] ∧
    CanValidate (loaded 1 0x41 []) .ok [0x41] := ⟨by decide, rfl, rfl, by decide, rfl, rfl, test_canValidate.1⟩

/-- Ignored, unbuilt, illegal `INIT` at its least value, and running. -/
theorem test_hyps_ValidateP4RunsToFinalState :
    (faulted .illegalCommand).inst.err ≠ .none ∧ State.reset.tblReady = false ∧ (loaded 9 0x41 []).tblReady = true ∧
    8 < (loaded 9 0x41 []).inst.init.toNat ∧ Variant.p4.rawState = true ∧ (loaded 1 0x41 []).turns = [] ∧
    CanValidate (loaded 1 0x41 []) .ok [0x41] := ⟨by decide, rfl, rfl, by decide, rfl, rfl, test_canValidate.1⟩

/-- Ignored, unbuilt, illegal `INIT` at its least value, and running. -/
theorem test_hyps_ValidateP6RunsToFinalState :
    (faulted .illegalCommand).inst.err ≠ .none ∧ State.reset.tblReady = false ∧ (loaded 9 0x41 []).tblReady = true ∧
    8 < (loaded 9 0x41 []).inst.init.toNat ∧ Variant.p6.rawState = false ∧ (loaded 1 0x41 []).turns = [] ∧
    CanValidate (loaded 1 0x41 []) .ok [0x41] := ⟨by decide, rfl, rfl, by decide, rfl, rfl, test_canValidate.1⟩

/-- The same, and a group that starts at index 8 and ends at the slice's end. -/
theorem test_hyps_ValidateP6uRunsToFinalState :
    (faulted .illegalCommand).inst.err ≠ .none ∧ State.reset.tblReady = false ∧ (loaded 9 0x41 []).tblReady = true ∧
    8 < (loaded 9 0x41 []).inst.init.toNat ∧ Variant.p6u.rawState = false ∧ (loaded 1 0x41 []).turns = [] ∧
    CanValidate (loaded 1 0x41 []) .ok [0x41] ∧ 8 % 8 = 0 ∧ 8 ≤ 16 - 8 ∧ 7 < 8 :=
  ⟨by decide, rfl, rfl, by decide, rfl, rfl, test_canValidate.1, by decide⟩

theorem test_hyps_VariantsAgree : CanValidate (loaded 8 0x80 []) .lead4High [0x80] ∧ (loaded 8 0x80 []).turns = [] :=
  ⟨test_canValidate.2.1, rfl⟩

theorem test_idle (ms : List HostMove) : Idle (withMoves ms) := ⟨rfl, rfl, rfl, rfl, rfl⟩

/-- V98: a two-byte sequence cut in two, in two variants, with no move after it. -/
theorem test_hyps_ChunkedRunsEqualOneRun :
    Idle (withMoves (chunkedMoves .ds .p6u [0xC3, 0xA9] 1)) ∧
    Config.lenFits (withMoves (chunkedMoves .ds .p6u [0xC3, 0xA9] 1)).params 1 = true ∧
    chunkedMoves .ds .p6u [0xC3, 0xA9] 1 = validateMoves .ds .ok [0xC3] ++
      [.carryResult, .writeLen 1, .supply [0xA9], .writeCmd Variant.p6u.cmdWord] ++ [] := ⟨test_idle _, rfl, rfl⟩

theorem test_hyps_ValidExactlyWhenRfcGrammar :
    Idle (withMoves (isValidMoves .p6 [0xC3, 0xA9])) ∧
    Config.lenFits (withMoves (isValidMoves .p6 [0xC3, 0xA9])).params 2 = true ∧
    (withMoves (isValidMoves .p6 [0xC3, 0xA9])).inst.moves = isValidMoves .p6 [0xC3, 0xA9] ++ [] ∧
    Utf8Octets [0xC3, 0xA9] :=
  ⟨test_idle _, rfl, rfl, .more [0xC3, 0xA9] [] (.two _ _ (by decide) (by decide)) .empty⟩

/-- The three outcomes. -/
theorem test_hyps_FinishedRunHasOneOfThreeOutcomes :
    (finished .ok []).inst.done = true ∧ (finished .ok []).inst.result = code .ok ∧
    (finished .fail []).inst.result = code .fail ∧ (finished .tail1 []).inst.result = code .tail1 := ⟨rfl, rfl, rfl, rfl⟩

/-- Every register, with `DONE` 0 and with `DONE` 1. -/
theorem test_hyps_HostReadsOfControlRegisters :
    (∀ r, (withMoves [.read r]).takeTurn = .ok (withMoves [.read r]) ∧ (withMoves [.read r]).inst.run = none ∧
      (withMoves [.read r]).inst.moves = [.read r] ∧ (withMoves [.read r]).inst.done = false) ∧
    ∀ r, (finished .ok [.read r]).takeTurn = .ok (finished .ok [.read r]) ∧ (finished .ok [.read r]).inst.run = none ∧
      (finished .ok [.read r]).inst.moves = [.read r] ∧ (finished .ok [.read r]).inst.done = true :=
  ⟨fun _ => ⟨rfl, rfl, rfl, rfl⟩, fun _ => ⟨rfl, rfl, rfl, rfl⟩⟩

/-- P1's boot with a fault recorded before it. -/
theorem test_hyps_BootOrderReachesResult :
    ((faulted .illegalCommand).setMoves ([.reset] ++ buildMoves ++ validateMoves .p6 .ok [0x48] ++ [])).turns = [] ∧
    ((faulted .illegalCommand).setMoves ([.reset] ++ buildMoves ++ validateMoves .p6 .ok [0x48] ++ [])).inst.run = none ∧
    (∀ i ∈ (faulted .illegalCommand).parked, i.run = none) ∧ Config.lenFits (faulted .illegalCommand).params 1 = true ∧
    ((faulted .illegalCommand).setMoves ([.reset] ++ buildMoves ++ validateMoves .p6 .ok [0x48] ++ [])).inst.moves =
      [.reset] ++ buildMoves ++ validateMoves .p6 .ok [0x48] ++ [] := ⟨rfl, rfl, by decide, rfl, rfl⟩

/-- Every move, the lengths at the bound of a 4-bit `IDXW`, and `INIT <- RESULT` with a result and without one. -/
theorem test_hyps_HostWritesOfControlRegisters :
    (∀ m, (withMoves [m]).takeTurn = .ok (withMoves [m]) ∧ (withMoves [m]).inst.run = none ∧
      (withMoves [m]).inst.moves = [m]) ∧
    Config.lenFits { autoBuild := false, idxWidth := some 4 } 15 = true ∧ 15 < 2 ^ 4 ∧ 2 ^ 4 ≤ 16 ∧
    Config.lenFits { autoBuild := false, idxWidth := some 4 } 16 = false ∧
    (finished .tail1 [.carryResult]).takeTurn = .ok (finished .tail1 [.carryResult]) ∧
    (finished .tail1 [.carryResult]).inst.run = none ∧ (finished .tail1 [.carryResult]).inst.moves = [.carryResult] ∧
    (finished .tail1 [.carryResult]).inst.done = true ∧ (withMoves [.carryResult]).inst.done = false :=
  ⟨fun _ => ⟨rfl, rfl, rfl⟩, by decide, by decide, by decide, by decide, rfl, rfl, rfl, rfl, rfl⟩

theorem test_hyps_HostFillsItsBuffer :
    (withMoves [.supply [0xC3]]).takeTurn = .ok (withMoves [.supply [0xC3]]) ∧ (withMoves [.supply [0xC3]]).inst.run = none ∧
    (withMoves [.putByte 0 0xC3]).inst.moves = [.putByte 0 0xC3] := ⟨rfl, rfl, rfl⟩

/-- RESET with another instance that is idle. -/
theorem test_hyps_ResetMoveResetsWholeBlock :
    (two none [.reset] []).takeTurn = .ok (two none [.reset] []) ∧ (two none [.reset] []).inst.run = none ∧
    (two none [.reset] []).inst.moves = [.reset] ∧ ∀ i ∈ (two none [.reset] []).parked, i.run = none := by
  refine ⟨rfl, rfl, rfl, by decide⟩

theorem test_hyps_ResetInsideAnotherCommandIsRefused :
    (two (some ⟨.ds, []⟩) [.reset] []).takeTurn = .ok (two (some ⟨.ds, []⟩) [.reset] []) ∧
    (two (some ⟨.ds, []⟩) [.reset] []).inst.run = none ∧ (two (some ⟨.ds, []⟩) [.reset] []).inst.moves = [.reset] ∧
    (two (some ⟨.ds, []⟩) [.reset] []).parked = [{ Inst.initial 1 with run := some ⟨.ds, []⟩ }] := ⟨rfl, rfl, rfl, rfl⟩

/-- A state of the invariant inside a run, in a raw variant: `INIT` is `Ok` and the byte 0xC3 has been consumed. -/
theorem test_running_inv : Inv (running .ds .tail1) := by
  refine ⟨rfl, fun _ => rfl, by decide, fun i hi => ?_⟩
  have : i = (running .ds .tail1).inst := by
    change i ∈ [(running .ds .tail1).inst] at hi
    simpa using hi
  subst this
  refine ⟨rfl, rfl, fun h => absurd h (by decide), fun r hr => ?_⟩
  cases hr
  exact ⟨rfl, rfl, rfl, rfl, by decide, .ok, rfl, by decide, fun h => absurd h (by decide)⟩

theorem test_hyps_StepKeepsInvariant : Inv (running .ds .tail1) ∧ ∃ t, step (running .ds .tail1) = .next t := by
  refine ⟨test_running_inv, (running .ds .tail1).stepS (code (delta .tail1 0xA9)), ?_⟩
  rw [step_of_takeTurn (takeTurn_nil rfl), perform_fetch_byte (r := ⟨.ds, [0xC3, 0xA9]⟩) (b := 0xA9) rfl rfl,
    byteStep_raw (r := ⟨.ds, [0xC3, 0xA9]⟩) (X := .tail1) rfl rfl rfl rfl]

theorem test_hyps_RunInProgressNeverStops :
    Inv (running .ds .tail1) ∧ (running .ds .tail1).takeTurn = .ok (running .ds .tail1) ∧
    (running .ds .tail1).inst.run = some ⟨.ds, [0xC3, 0xA9]⟩ := ⟨test_running_inv, rfl, rfl⟩

theorem test_hyps_RunInProgressCompletes :
    Inv (running .ds .tail1) ∧ (running .ds .tail1).turns = [] ∧
    (running .ds .tail1).inst.run = some ⟨.ds, [0xC3, 0xA9]⟩ ∧ (running .ds .tail1).inst.init = code .ok :=
  ⟨test_running_inv, rfl, rfl, rfl⟩

/-- A register write, a RESET, and an epilogue whose host has RESET as its next move, beside another instance. -/
theorem test_hyps_StepWritesOnlyActingInstance :
    (two none [.writeInit 1] []).takeTurn = .ok (two none [.writeInit 1] []) ∧
    (∃ t, step (two none [.writeInit 1] []) = .next t) ∧ (two none [.reset] []).takeTurn = .ok (two none [.reset] []) ∧
    (∃ t, step (two none [.reset] []) = .next t) ∧
    ∃ t, step { ((running .ds .tail1).stepS 1).setMoves [.reset] with parked := [Inst.initial 1] } = .next t :=
  ⟨rfl, ⟨_, rfl⟩, rfl, ⟨_, rfl⟩, ⟨_, rfl⟩⟩

/-- A step beside an instance inside a run, a RESET beside idle instances, and an epilogue with RESET as the next move. -/
theorem test_hyps_ActingInstanceLearnsNothingOfOthers :
    (two (some ⟨.ds, [0x41]⟩) [.writeCmd 0x10] []).turns = [] ∧
    (two (some ⟨.ds, [0x41]⟩) [.writeCmd 0x08] []).inst.moves.head? ≠ some .reset ∧
    (∃ t, step (two (some ⟨.ds, [0x41]⟩) [.writeCmd 0x08] []) = .next t) ∧
    (two none [.reset] []).inst.moves.head? = some .reset ∧ (∀ i ∈ [Inst.initial 1, Inst.initial 2], i.run = none) ∧
    (∃ t, step (two none [.reset] []) = .next t) ∧ (((running .ds .tail1).stepS 1).setMoves [.reset]).inst.run ≠ none ∧
    ∃ t, step (((running .ds .tail1).stepS 1).setMoves [.reset]) = .next t :=
  ⟨rfl, by decide, ⟨_, rfl⟩, rfl, by decide, ⟨_, rfl⟩, by decide, ⟨_, rfl⟩⟩

end Sys2Proof.Tests
end

section
/-! SUPPORT. The reset state: `VALID`, `FAILED` and the `STATUS` word follow from `DONE`, `ERR` and `TBL_READY` (R28), not
from the number that `RESULT` happens to hold. -/

namespace Sys2Proof.Machine

theorem Inst.valid_eq_false_of_not_done {i : Inst} (h : i.done = false) : i.valid = false := by
  simp [Inst.valid, h]

theorem Inst.failed_eq_false_of_not_done {i : Inst} (h : i.done = false) : i.failed = false := by
  simp [Inst.failed, h]

/-- `STATUS` reads 0 once its three stored fields do: `VALID` and `FAILED` need `DONE` (R28). -/
theorem statusWord_eq_zero {s : State} (hdone : s.inst.done = false) (herr : s.inst.err = .none)
    (hready : s.tblReady = false) : statusWord s = 0 := by
  have hvalid := Inst.valid_eq_false_of_not_done hdone
  have hfailed := Inst.failed_eq_false_of_not_done hdone
  simp [statusWord, hdone, herr, hready, hvalid, hfailed, ErrCode.bits]

@[simp] theorem State.reset_tables : State.reset.tables = Tables.empty := rfl

@[simp] theorem State.reset_done : State.reset.inst.done = false := rfl

@[simp] theorem State.reset_err : State.reset.inst.err = .none := rfl

@[simp] theorem State.reset_tblReady : State.reset.tblReady = false := rfl

/-- Settles O50: the stored fields of the reset state give its `STATUS` word, and its tables are the empty ones. -/
theorem resetStateHoldsSpecValues : Obligations.ResetStateHoldsSpecValues := by
  unfold Obligations.ResetStateHoldsSpecValues
  have hstatus : statusWord State.reset = 0 :=
    statusWord_eq_zero State.reset_done State.reset_err State.reset_tblReady
  have hvalid := Inst.valid_eq_false_of_not_done State.reset_done
  have hfailed := Inst.failed_eq_false_of_not_done State.reset_done
  have htables : ∀ c b, State.reset.tables.readSb c b = none ∧ State.reset.tables.readBs b c = none ∧
      State.reset.tables.readRow4 b = none ∧ State.reset.tables.readRow6p b = none := by
    intro c b
    simp only [State.reset_tables, readSb_empty, readBs_empty, readRow4_empty, readRow6p_empty, and_self]
  exact ⟨hstatus, State.reset_tblReady, State.reset_done, State.reset_err, hvalid, hfailed, rfl, rfl, rfl, rfl, rfl, rfl, htables⟩

end Sys2Proof.Machine
end

section
/-! SUPPORT. What a step is when an acting host makes a move, the fields of the `STATUS` word, what RESET makes of all
instances, and the word of an instruction of format BYTE. -/

namespace Sys2Proof

/-- The format of a word. -/
def TableWord.format : TableWord → Format
  | .byte _ => .byte
  | .cmd _ => .cmd

theorem encode_format (i : Instr) : (encode i).format = i.format := by
  cases i <;> rfl

theorem encode_of_format_byte {i : Instr} (h : i.format = .byte) : ∃ b, encode i = .byte b := by
  rw [← encode_format] at h
  cases hw : encode i with
  | byte b => exact ⟨b, rfl⟩
  | cmd w =>
    rw [hw] at h
    cases h

end Sys2Proof

namespace Sys2Proof.Machine

/-! ### One step -/

/-- With no run in progress a step makes the next move of the acting host (R208). -/
theorem step_hostMove {s t : State} {m : HostMove} {ms : List HostMove} (hturn : s.takeTurn = .ok t)
    (hrun : t.inst.run = none) (hmoves : t.inst.moves = m :: ms) : step s = perform (hostMove m (t.setMoves ms)) := by
  rw [step_of_takeTurn hturn, perform_fetch_move hrun hmoves]

theorem perform_ofDecoded {d : Option Instr} {i : Instr} (h : d = some i) (s : State) :
    perform (.ofDecoded d s) = exec i s := by
  rw [h]
  rfl

/-! ### A register access that goes through, or that is refused (R25, R29) -/

theorem hostRead_result_done {s : State} (h : s.inst.done = true) :
    hostRead .result s = .next (s.setReadOut .result s.inst.result.toNat) := by
  simp [hostRead, h]

theorem hostRead_result_refused {s : State} (h : s.inst.done = false) :
    hostRead .result s = .refused .resultHasNoValue := by
  simp [hostRead, h]

theorem hostCarry_done {s : State} (h : s.inst.done = true) :
    hostCarry s = .next ((s.setReadOut .result s.inst.result.toNat).setInit s.inst.result) := by
  simp [hostCarry, h]

theorem hostCarry_refused {s : State} (h : s.inst.done = false) : hostCarry s = .refused .resultHasNoValue := by
  simp [hostCarry, h]

/-- A length is representable exactly when it is below `2^IDXW`, for whatever width there is (R25). -/
theorem lenFits_iff {p : Params} {n : Nat} : Config.lenFits p n = true ↔ ∀ k, p.idxWidth = some k → n < 2 ^ k := by
  cases h : p.idxWidth <;> simp [Config.lenFits, h]

theorem hostWriteLen_fits {s : State} {n : Nat} (h : Config.lenFits s.params n = true) :
    hostWriteLen n s = .next (s.setLen n) := by
  simp [hostWriteLen, h]

theorem hostWriteLen_refused {s : State} {n : Nat} (h : Config.lenFits s.params n = false) :
    hostWriteLen n s = .refused .lenNotRepresentable := by
  simp [hostWriteLen, h]

/-! ### The `STATUS` word (R28) -/

theorem statusWord_tblReady (s : State) : (statusWord s).getLsbD 0 = s.tblReady := by
  simp only [statusWord, BitVec.getLsbD_append]
  simp

theorem statusWord_done (s : State) : (statusWord s).getLsbD 1 = s.inst.done := by
  simp only [statusWord, BitVec.getLsbD_append]
  simp

theorem statusWord_err (s : State) : (statusWord s).extractLsb' 2 2 = s.inst.err.bits := by
  refine BitVec.eq_of_getLsbD_eq fun j hj => ?_
  have habove : ¬ 2 + j < 1 := by omega
  simp only [BitVec.getLsbD_extractLsb', statusWord, BitVec.getLsbD_append]
  simp [hj, habove]

theorem statusWord_valid (s : State) : (statusWord s).getLsbD 4 = s.inst.valid := by
  simp only [statusWord, BitVec.getLsbD_append]
  simp

theorem statusWord_failed (s : State) : (statusWord s).getLsbD 5 = s.inst.failed := by
  simp only [statusWord, BitVec.getLsbD_append]
  simp

theorem Inst.valid_iff (i : Inst) : i.valid = true ↔ i.done = true ∧ i.result = code .ok := by
  simp [Inst.valid]

theorem Inst.failed_iff (i : Inst) : i.failed = true ↔ i.done = true ∧ i.result = code .fail := by
  simp [Inst.failed]

/-- `RESULT` cannot be the code of `Ok` and of `Fail` at once. -/
theorem Inst.not_valid_and_failed (i : Inst) : ¬ (i.valid = true ∧ i.failed = true) := by
  rintro ⟨hvalid, hfailed⟩
  obtain ⟨-, hok⟩ := i.valid_iff.mp hvalid
  obtain ⟨-, hfail⟩ := i.failed_iff.mp hfailed
  exact absurd (code_injective _ _ (hok.symm.trans hfail)) (by decide)

@[simp] theorem statusWord_stepS (s : State) (n : Code) : statusWord (s.stepS n) = statusWord s := rfl

@[simp] theorem statusWord_stepOff (s : State) (o : Row) : statusWord (s.stepOff o) = statusWord s := rfl

/-! ### RESET -/

@[simp] theorem Inst.reset_id (i : Inst) : i.reset.id = i.id := rfl
@[simp] theorem Inst.reset_initSet (i : Inst) : i.reset.initSet = false := rfl
@[simp] theorem Inst.reset_lenSet (i : Inst) : i.reset.lenSet = false := rfl
@[simp] theorem Inst.reset_done (i : Inst) : i.reset.done = false := rfl
@[simp] theorem Inst.reset_err (i : Inst) : i.reset.err = .none := rfl
@[simp] theorem Inst.reset_run (i : Inst) : i.reset.run = none := rfl
@[simp] theorem Inst.reset_input (i : Inst) : i.reset.input = i.input := rfl
@[simp] theorem Inst.reset_moves (i : Inst) : i.reset.moves = i.moves := rfl

/-- RESET acts on all instances alike, each on its own (R233). -/
theorem State.resetAll_insts (s : State) :
    s.resetAll.inst :: s.resetAll.parked = (s.inst :: s.parked).map Inst.reset := rfl

theorem otherRuns_eq_false {s : State} (h : ∀ i ∈ s.parked, i.run = none) : s.otherRuns = false := by
  simpa [State.otherRuns] using h

theorem doReset_of_noOtherRun {s : State} (h : ∀ i ∈ s.parked, i.run = none) : doReset s = .next s.resetAll := by
  simp [doReset, otherRuns_eq_false h]

end Sys2Proof.Machine
end

section
/-! SUPPORT. Every step keeps the invariant of the block: one lemma for each thing that the acting one of the
instances can do, over the facts that a turn only rearranges them and that all but RESET and BUILD write the acting one alone. -/

namespace Sys2Proof.Safety

open Sys2Proof.Machine

/-! ### The values of a pre-multiplied row (R87, R186) -/

/-- A field below `2^6`, put in the place of any of the nine states, stays below `2^54`. -/
theorem packField6_lt {field : DState → Row} {acc : Row} (X : DState) (hacc : acc.toNat < 2 ^ 54)
    (hfield : (field X).toNat < 2 ^ 6) : (packField 6 field acc X).toNat < 2 ^ 54 := by
  have hplace : 6 * (code X).toNat ≤ 48 := Nat.mul_le_mul_left 6 (code_toNat_le X)
  have hshift : (field X).toNat <<< (6 * (code X).toNat) < 2 ^ 54 :=
    lt_of_lt_of_le (Nat.shiftLeft_lt hfield) (Nat.pow_le_pow_right (by decide) (by omega))
  rw [packField, BitVec.toNat_or, BitVec.toNat_shiftLeft]
  exact Nat.or_lt_two_pow hacc ((Nat.mod_le _ _).trans_lt hshift)

/-- A row of nine 6-bit fields is below `2^54`. -/
theorem packRow6_lt {field : DState → Row} (hfield : ∀ X, (field X).toNat < 2 ^ 6) :
    (packRow 6 field).toNat < 2 ^ 54 :=
  List.foldlRecOn (motive := fun acc => acc.toNat < 2 ^ 54) allStates (packField 6 field) (by decide)
    fun _ hacc X _ => packField6_lt X hacc (hfield X)

theorem premulLoad_code_lt (X : DState) : (premulLoad (code X)).toNat < 2 ^ 6 := by
  cases X <;> decide

theorem buildRow6p_lt (b : Byte) : (buildRow6p b).toNat < 2 ^ 54 :=
  packRow6_lt fun X => premulLoad_code_lt (delta X b)

/-- After a pre-multiplied step all 64 bits of `OFF` are below `2^54` (R186). -/
theorem premulStep_built_lt (b : Byte) (off : Row) : (premulStep (buildRow6p b) off).toNat < 2 ^ 54 := by
  rw [premulStep, BitVec.toNat_ushiftRight]
  exact (Nat.shiftRight_le _ _).trans_lt (buildRow6p_lt b)

/-! ### The invariant of one of the instances -/

/-- The state carried after one more byte of the slice. -/
theorem deltaStar_take_succ {X : DState} {slice : List Byte} {k : Nat} {b : Byte} (hb : slice[k]? = some b) :
    deltaStar X (slice.take (k + 1)) = delta (deltaStar X (slice.take k)) b := by
  simp [deltaStar, List.take_add_one, hb]

theorem length_of_snapshot {i : Inst} {slice : List Byte} (h : snapshot i = some slice) : slice.length = i.len :=
  (Memory.sliceAt_spec i.input 0 i.len slice h).1

variable {p : Params} {ready : Bool} {i : Inst}

theorem instInv_iff_of_noRun (hrun : i.run = none) :
    InstInv p ready i ↔ i.input.wf = true ∧ Config.lenFits p i.len = true ∧
      (i.done = true → ready = true ∧ i.err = .none ∧ ∃ X, i.result = code X) := by
  simp [InstInv, hrun]

/-- Inside a run `DONE` is 0, so only the run's own invariant is left to say. -/
theorem instInv_iff_of_run {r : Run} (hrun : i.run = some r) :
    InstInv p ready i ↔ i.input.wf = true ∧ Config.lenFits p i.len = true ∧ RunInv ready i r := by
  constructor
  · rintro ⟨hwf, hlen, -, hinv⟩
    exact ⟨hwf, hlen, hinv r hrun⟩
  · rintro ⟨hwf, hlen, hinv⟩
    have hdone : i.done = false := by
      obtain ⟨-, -, hdone, -⟩ := hinv
      exact hdone
    refine ⟨hwf, hlen, by simp [hdone], fun r' hr' => ?_⟩
    rw [hrun] at hr'
    cases hr'
    exact hinv

/-- Building the tables breaks the invariant of none of the instances: `InstInv` only asks for them to be ready. -/
theorem instInv_ready (h : InstInv p ready i) : InstInv p true i := by
  obtain ⟨hwf, hlen, hdone, hrun⟩ := h
  exact ⟨hwf, hlen, fun hd => ⟨rfl, (hdone hd).2⟩, fun r hr => ⟨rfl, (hrun r hr).2⟩⟩

theorem lenFits_zero (p : Params) : Config.lenFits p 0 = true := by
  unfold Config.lenFits
  split <;> simp

theorem instInv_reset (h : i.input.wf = true) : InstInv p ready i.reset :=
  (instInv_iff_of_noRun rfl).mpr ⟨h, lenFits_zero p, fun hdone => absurd hdone Bool.false_ne_true⟩

/-- A byte step of a run in progress keeps the run's invariant: in both kinds of variant the carried register moves by
`delta`, and in the pre-multiplied ones `OFF` is below `2^54` from then on (R35, R172, R186, R187). -/
theorem runInv_byteStep {s t : State} {r : Run} {b : Byte} (hbuilt : s.tables = Tables.built)
    (hrun : s.inst.run = some r) (hb : r.slice[s.inst.idx]? = some b) (h : RunInv ready s.inst r)
    (hstep : byteStep b s = .next t) : RunInv ready t.inst r := by
  obtain ⟨hready, herr, hdone, hslice, -, X, hX, hcar, -⟩ := h
  have hidx : s.inst.idx + 1 ≤ s.inst.len := by
    rw [← length_of_snapshot hslice]
    exact (List.getElem?_eq_some_iff.mp hb).1
  cases hv : r.variant.rawState with
  | true =>
    rw [byteStep_raw hbuilt hrun hv ((carries_raw hv _ _).mp hcar)] at hstep
    cases hstep
    refine ⟨hready, herr, hdone, hslice, hidx, X, hX, ?_, by simp [hv]⟩
    rw [carries_raw hv, State.stepS_s, State.stepS_idx, deltaStar_take_succ hb]
  | false =>
    rw [byteStep_premul hbuilt hrun hv] at hstep
    cases hstep
    refine ⟨hready, herr, hdone, hslice, hidx, X, hX, ?_, fun _ _ => premulStep_built_lt b _⟩
    rw [carries_premul hv, State.stepOff_off, State.stepOff_idx, deltaStar_take_succ hb]
    exact premulStep_built _ b _ ((carries_premul hv _ _).mp hcar)

/-- A prologue that begins a run establishes the run's invariant (R202). -/
theorem runInv_beginRun {s : State} {v : Variant} {X : DState} {slice : List Byte} (hready : ready = true)
    (herr : s.inst.err = .none) (hX : s.inst.init = code X) (hslice : snapshot s.inst = some slice) :
    RunInv ready (s.beginRun v slice).inst ⟨v, slice⟩ := by
  refine ⟨hready, by simpa using herr, by simp, by simpa [snapshot] using hslice, by simp, X, by simpa using hX, ?_,
    by simp⟩
  simpa [deltaStar] using carries_beginRun s v slice X hX

/-! ### The invariant of the block -/

variable {s t : State}

theorem inv_acting (h : Inv s) : InstInv s.params s.tblReady s.inst := by
  obtain ⟨-, -, -, hinsts⟩ := h
  exact hinsts s.inst List.mem_cons_self

/-- A step that writes the acting one of the instances alone keeps the invariant where that one keeps its own. -/
theorem inv_withInst {j : Inst} (h : Inv s) (hid : j.id = s.inst.id) (hj : InstInv s.params s.tblReady j) :
    Inv { s with inst := j } := by
  obtain ⟨htables, hauto, hids, hinsts⟩ := h
  refine ⟨htables, hauto, by simpa [hid] using hids, ?_⟩
  simp only [List.forall_mem_cons] at hinsts ⊢
  exact ⟨hj, hinsts.2⟩

/-- The same where it is left between commands. -/
theorem inv_withIdleInst {j : Inst} (h : Inv s) (hid : j.id = s.inst.id) (hrun : j.run = none) (hwf : j.input.wf = true)
    (hlen : Config.lenFits s.params j.len = true)
    (hdone : j.done = true → s.tblReady = true ∧ j.err = .none ∧ ∃ X, j.result = code X) : Inv { s with inst := j } :=
  inv_withInst h hid ((instInv_iff_of_noRun hrun).mpr ⟨hwf, hlen, hdone⟩)

/-- A turn only rearranges the instances (R233). -/
theorem inv_takeTurn (h : Inv s) (hturn : s.takeTurn = .ok t) : Inv t := by
  obtain ⟨htables, hauto, hids, hinsts⟩ := h
  obtain ⟨hperm, hp, ht, hr, -⟩ := takeTurn_spec hturn
  refine ⟨by rwa [hr, ht], by rwa [hp, hr], (hperm.map Inst.id).nodup_iff.mp hids, fun i hi => ?_⟩
  rw [hp, hr]
  exact hinsts i (hperm.mem_iff.mpr hi)

/-- The tables are the built ones wherever a run is in progress (R56, R59). -/
theorem tables_built_of_run {r : Run} (h : Inv s) (hrun : s.inst.run = some r) : s.tables = Tables.built := by
  obtain ⟨-, -, hready, -⟩ := (instInv_iff_of_run hrun).mp (inv_acting h)
  simpa [hready] using h.1

theorem inv_byteStep {r : Run} {b : Byte} (h : Inv s) (hrun : s.inst.run = some r)
    (hb : r.slice[s.inst.idx]? = some b) (hstep : byteStep b s = .next t) : Inv t := by
  obtain ⟨hwf, hlen, hinv⟩ := (instInv_iff_of_run hrun).mp (inv_acting h)
  have hinv' := runInv_byteStep (tables_built_of_run h hrun) hrun hb hinv hstep
  obtain ⟨-, -, ⟨-, n, rfl⟩ | ⟨-, o, rfl⟩⟩ := byteStep_cases hstep
  · exact inv_withInst h rfl ((instInv_iff_of_run (i := (s.stepS n).inst) hrun).mpr ⟨hwf, hlen, hinv'⟩)
  · exact inv_withInst h rfl ((instInv_iff_of_run (i := (s.stepOff o).inst) hrun).mpr ⟨hwf, hlen, hinv'⟩)

/-- The epilogue leaves the code of the carried state in `RESULT` (R203). -/
theorem inv_finishRun {r : Run} (h : Inv s) (hrun : s.inst.run = some r) : Inv (s.finishRun r.variant) := by
  obtain ⟨hwf, hlen, hready, herr, -, -, -, X, -, hcar, -⟩ := (instInv_iff_of_run hrun).mp (inv_acting h)
  exact inv_withIdleInst h rfl rfl hwf hlen fun _ => ⟨hready, herr, _, finalCode_of_carries hcar⟩

/-- RESET leaves all instances idle, and the tables as `AUTO_BUILD` says (R250). -/
theorem inv_resetAll (h : Inv s) : Inv s.resetAll := by
  obtain ⟨-, -, hids, hinsts⟩ := h
  refine ⟨?_, id, ?_, ?_⟩
  · simp only [State.resetAll_tblReady, State.resetAll_tables, Tables.afterReset]
    split <;> rfl
  · rw [State.resetAll_insts, List.map_map]
    exact hids
  · rw [State.resetAll_insts, List.forall_mem_map]
    exact fun i hi => instInv_reset (hinsts i hi).1

/-- BUILD makes the tables and the flag agree, and the instances keep their own invariant (R59). -/
theorem inv_installTables (h : Inv s) : Inv s.installTables := by
  obtain ⟨-, -, hids, hinsts⟩ := h
  exact ⟨rfl, fun _ => rfl, hids, fun i hi => instInv_ready (hinsts i hi)⟩

theorem inv_raise {e : ErrCode} (h : Inv s) (hrun : s.inst.run = none) : Inv (s.raise e) := by
  obtain ⟨hwf, hlen, -⟩ := (instInv_iff_of_noRun hrun).mp (inv_acting h)
  exact inv_withIdleInst h rfl hrun hwf hlen fun hdone => absurd hdone Bool.false_ne_true

theorem inv_beginRun {v : Variant} {X : DState} {slice : List Byte} (h : Inv s) (hready : s.tblReady = true)
    (herr : s.inst.err = .none) (hX : s.inst.init = code X) (hslice : snapshot s.inst = some slice) :
    Inv (s.beginRun v slice) := by
  obtain ⟨hwf, hlen, -⟩ := inv_acting h
  have hblock : s.beginRun v slice = { s with inst := (s.beginRun v slice).inst } := by cases v <;> rfl
  rw [hblock]
  refine inv_withInst h (by simp) ((instInv_iff_of_run (State.beginRun_run s v slice)).mpr ⟨?_, ?_, ?_⟩)
  · simpa using hwf
  · simpa using hlen
  · exact runInv_beginRun hready herr hX hslice

/-- A command word taken between commands keeps the invariant. -/
theorem inv_exec_cmd {i : Instr} {w : CmdWord} (h : Inv s) (hrun : s.inst.run = none) (hw : encode i = .cmd w)
    (hexec : exec i s = .next t) : Inv t := by
  obtain rfl | ⟨-, rfl⟩ | ⟨e, -, rfl⟩ | ⟨herr, hready, v, X, slice, hX, hslice, rfl⟩ := exec_cmd_cases hw hexec
  · exact h
  · exact inv_installTables h
  · exact inv_raise h hrun
  · exact inv_beginRun h hready herr hX hslice

theorem inv_setInit (c : Code) (h : Inv s) (hrun : s.inst.run = none) : Inv (s.setInit c) := by
  obtain ⟨hwf, hlen, hdone⟩ := (instInv_iff_of_noRun hrun).mp (inv_acting h)
  exact inv_withIdleInst h rfl hrun hwf hlen hdone

theorem inv_setLen {n : Nat} (h : Inv s) (hrun : s.inst.run = none) (hfits : Config.lenFits s.params n = true) :
    Inv (s.setLen n) := by
  obtain ⟨hwf, -, hdone⟩ := (instInv_iff_of_noRun hrun).mp (inv_acting h)
  exact inv_withIdleInst h rfl hrun hwf hfits hdone

theorem inv_setInput {m : Memory} (h : Inv s) (hrun : s.inst.run = none) (hwf : m.wf = true) : Inv (s.setInput m) := by
  obtain ⟨-, hlen, hdone⟩ := (instInv_iff_of_noRun hrun).mp (inv_acting h)
  exact inv_withIdleInst h rfl hrun hwf hlen hdone

/-- The invariant does not speak of what the host has read. -/
theorem inv_setReadOut (r : CReg) (v : Nat) (h : Inv s) : Inv (s.setReadOut r v) :=
  inv_withInst h rfl (inv_acting h)

/-- Nor of the moves the host is still to make. -/
theorem inv_setMoves (ms : List HostMove) (h : Inv s) : Inv (s.setMoves ms) :=
  inv_withInst h rfl (inv_acting h)

/-- A host move between commands keeps the invariant (R25 to R29, R250). -/
theorem inv_hostMove {m : HostMove} (h : Inv s) (hrun : s.inst.run = none)
    (hmove : perform (hostMove m s) = .next t) : Inv t := by
  obtain ⟨w, i, -, hi, hexec⟩ | ⟨-, -, rfl⟩ | ⟨c, -, rfl⟩ | ⟨n, -, hfits, rfl⟩ | ⟨bytes, -, rfl⟩ | ⟨k, b, -, rfl⟩ |
    ⟨r, q, v, -, rfl⟩ | ⟨-, -, rfl⟩ := hostMove_cases hmove
  · exact inv_exec_cmd h hrun (Laws.encode_of_decodeCmd hi) hexec
  · exact inv_resetAll h
  · exact inv_setInit c h hrun
  · exact inv_setLen h hrun hfits
  · exact inv_setInput h hrun (Memory.wf_ofBytesAt bytes 0)
  · exact inv_setInput h hrun (Memory.wf_write _ k b (inv_acting h).1)
  · exact inv_setReadOut q v h
  · exact inv_setInit _ (inv_setReadOut _ _ h) hrun

/-- Whatever the acting one of the instances does keeps the invariant. -/
theorem inv_perform_fetch (h : Inv s) (hnext : perform (fetch s) = .next t) : Inv t := by
  obtain ⟨r, b, hrun, hb, hstep⟩ | ⟨r, hrun, -, rfl⟩ | ⟨-, -, rfl⟩ | ⟨m, ms, hrun, -, hmove⟩ :=
    perform_fetch_cases hnext
  · exact inv_byteStep h hrun hb hstep
  · exact inv_finishRun h hrun
  · exact h
  · exact inv_hostMove (inv_setMoves ms h) hrun hmove

/-- A step that answers a next state took a turn first, and then the one it chose acted. -/
theorem takeTurn_of_step_next (h : step s = .next t) : ∃ u, s.takeTurn = .ok u ∧ perform (fetch u) = .next t := by
  unfold step at h
  split at h
  case h_1 u hu => exact ⟨u, hu, h⟩
  case h_2 => cases h

/-- The reset state has one idle record of `Inst`, and its tables hold no value. -/
theorem inv_reset : Inv State.reset := by
  refine ⟨rfl, fun hauto => absurd hauto Bool.false_ne_true, List.nodup_singleton 0, ?_⟩
  rw [List.forall_mem_cons]
  exact ⟨instInv_reset (i := Inst.initial 0) rfl, List.forall_mem_nil _⟩

end Sys2Proof.Safety
end

section
/-! SUPPORT. The statements about the state: the invariant, what a byte word and RESET leave unchanged, what a step executes,
and the host's accesses to the control registers. -/

namespace Sys2Proof.Machine

open Sys2Proof.Safety

/-- Settles O54: the turn keeps the invariant, and so does whatever is done in it. -/
theorem stepKeepsInvariant : Obligations.StepKeepsInvariant := by
  unfold Obligations.StepKeepsInvariant
  intro s t hinv hstep
  obtain ⟨u, hturn, hact⟩ := takeTurn_of_step_next hstep
  exact inv_perform_fetch (inv_takeTurn hinv hturn) hact

/-- Settles O53: nothing is built, and the registers are as RESET leaves them. -/
theorem invariantHoldsAtReset : Obligations.InvariantHoldsAtReset := inv_reset

/-- Settles O51: RESET goes through, and resets all instances, each on its own. -/
theorem resetMoveResetsWholeBlock : Obligations.ResetMoveResetsWholeBlock := by
  unfold Obligations.ResetMoveResetsWholeBlock
  intro s t ms hturn hrun hmoves hothers
  have hstep : step s = .next (t.setMoves ms).resetAll := by
    rw [step_hostMove hturn hrun hmoves]
    exact doReset_of_noOtherRun hothers
  refine ⟨_, hstep, rfl, rfl, rfl, rfl, ?_, rfl, ?_, ?_, ?_⟩
  · rw [State.resetAll_insts]
    simp
  · simp
  · rw [State.resetAll_insts]
    simp
  · rw [State.resetAll_insts, List.forall_mem_map]
    intro i _
    simp

/-- Settles O26: a byte word writes `S` and `IDX`, or `OFF` and `IDX`, and each other field is then read as it was. -/
theorem byteWordFrame : Obligations.ByteWordFrame := by
  unfold Obligations.ByteWordFrame
  intro i s t hformat hexec
  obtain ⟨b, hb⟩ := encode_of_format_byte hformat
  rw [exec_of_encode_byte hb] at hexec
  obtain ⟨r, hrun, ⟨hraw, n, rfl⟩ | ⟨hpremul, o, rfl⟩⟩ := byteStep_cases hexec
  · refine ⟨⟨r, hrun, by simp, by simp [hraw]⟩, ?_⟩
    simp
  · refine ⟨⟨r, hrun, by simp [hpremul], by simp⟩, ?_⟩
    simp

/-- Settles O4: the step is the byte step on the byte at `IDX`, and so is the execution of its word. -/
theorem stepExecutesFetchedByteWord : Obligations.StepExecutesFetchedByteWord := by
  unfold Obligations.StepExecutesFetchedByteWord
  intro s t r b i hturn hrun _ hb hi
  rw [step_of_takeTurn hturn, perform_fetch_byte hrun hb, exec_of_decodeByte hi]

/-- Settles O5: the host's move is made, and its word is what is fetched. -/
theorem stepExecutesWrittenCommand : Obligations.StepExecutesWrittenCommand := by
  unfold Obligations.StepExecutesWrittenCommand
  intro s t w ms i hturn hrun hmoves hi
  rw [step_hostMove hturn hrun hmoves]
  exact perform_ofDecoded hi (t.setMoves ms)

/-- Settles O45: field by field, and `RESULT` is not the code of two states. -/
theorem statusWordHoldsItsFields : Obligations.StatusWordHoldsItsFields := by
  unfold Obligations.StatusWordHoldsItsFields
  intro s
  rw [statusWord_valid, statusWord_failed]
  exact ⟨statusWord_tblReady s, statusWord_done s, statusWord_err s, s.inst.valid_iff, s.inst.failed_iff,
    s.inst.not_valid_and_failed⟩

/-- Settles O47: the step is the host's read, which either answers the register or is refused. -/
theorem hostReadsOfControlRegisters : Obligations.HostReadsOfControlRegisters := by
  unfold Obligations.HostReadsOfControlRegisters
  intro s t r ms hturn hrun hmoves
  have hstep : step s = hostRead r (t.setMoves ms) := step_hostMove hturn hrun hmoves
  rw [hstep]
  refine ⟨?_, ?_, ?_, ?_, ?_, ?_⟩
  · rintro rfl
    rfl
  · rintro rfl
    rfl
  · rintro rfl hdone
    exact hostRead_result_done hdone
  · rintro rfl hdone
    exact hostRead_result_refused hdone
  · rintro rfl
    rfl
  · rintro rfl
    rfl

/-- Settles O48: the step is the host's write, and the two that can be refused split on what decides it: whether the length
fits, and whether `DONE` is 1. -/
theorem hostWritesOfControlRegisters : Obligations.HostWritesOfControlRegisters := by
  unfold Obligations.HostWritesOfControlRegisters
  intro s t m ms hturn hrun hmoves
  rw [step_hostMove hturn hrun hmoves]
  refine ⟨?_, ?_, ?_, ?_, ?_, ?_, ?_⟩
  · rintro c rfl
    rfl
  · rintro n rfl hfits
    exact hostWriteLen_fits (lenFits_iff.mpr hfits)
  · rintro n k rfl hwidth hlarge
    refine hostWriteLen_refused (Bool.eq_false_iff.mpr fun hfits => ?_)
    exact Nat.not_lt.mpr hlarge (lenFits_iff.mp hfits k hwidth)
  · rintro v rfl
    rfl
  · rintro v rfl
    rfl
  · rintro rfl hdone
    exact hostCarry_done hdone
  · rintro rfl hdone
    exact hostCarry_refused hdone

end Sys2Proof.Machine
end

section
/-! SUPPORT. What a byte word reads and carries in each variant, what a VALIDATE makes of its slice, what a write and a
supply put in the buffer, and that built tables outlast everything but RESET. -/

namespace Sys2Proof.Machine

open Sys2Proof.Safety

/-! ### The input space (R51) -/

theorem Memory.read_write (m : Memory) (i a : Nat) (b : Byte) :
    (m.write i b).read a = if a = i then some b else m.read a := by
  split
  case isTrue h => rw [h, Memory.read_write_same]
  case isFalse h => exact Memory.read_write_other m i a b (Ne.symm h)

theorem Memory.read_supplied (bytes : List Byte) (a : Nat) : (Memory.ofBytesAt 0 bytes).read a = bytes[a]? := by
  simpa using Memory.read_ofBytesAt bytes 0 a

/-- The snapshot holds the bytes that stand below `LEN`, if each of them was supplied (R202). -/
theorem snapshot_of_reads {i : Inst} {bytes : List Byte} (hlen : bytes.length = i.len)
    (hreads : ∀ a, a < i.len → i.input.read a = bytes[a]?) : snapshot i = some bytes := by
  rw [snapshot, ← hlen]
  refine Memory.sliceAt_of_reads i.input 0 bytes fun a ha => ?_
  rw [Nat.zero_add]
  exact hreads a (hlen ▸ ha)

/-- One index below `LEN` without a byte is enough for there to be no snapshot (log entry 6). -/
theorem snapshot_eq_none {i : Inst} {a : Nat} (ha : a < i.len) (hread : i.input.read a = none) : snapshot i = none :=
  Memory.sliceAt_none i.input 0 i.len a ha (by rwa [Nat.zero_add])

/-! ### The byte step, variant by variant (R55) -/

section
variable {b : Byte} {s : State} {r : Run}

theorem byteStep_ds (hrun : s.inst.run = some r) (hv : r.variant = .ds) :
    byteStep b s = carryS s (s.tables.readSb s.inst.s b) := by
  simp only [byteStep, hrun, hv]

theorem byteStep_db (hrun : s.inst.run = some r) (hv : r.variant = .db) :
    byteStep b s = carryS s (s.tables.readBs b s.inst.s) := by
  simp only [byteStep, hrun, hv]

theorem byteStep_p4 (hrun : s.inst.run = some r) (hv : r.variant = .p4) :
    byteStep b s = carryS s ((s.tables.readRow4 b).map fun row => plainStep4 row s.inst.s) := by
  simp only [byteStep, hrun, hv]

/-- The unrolling of P6U does not show in the step on one byte (R184). -/
theorem byteStep_p6 (hrun : s.inst.run = some r) (hv : r.variant = .p6 ∨ r.variant = .p6u) :
    byteStep b s = carryOff s ((s.tables.readRow6p b).map fun row => premulStep row s.inst.off) := by
  obtain hv | hv := hv
  all_goals simp only [byteStep, hrun, hv]

/-- Over built tables a byte step has a next state, in which the carried state has moved by `delta` (R55, R110). -/
theorem byteStep_applies_delta {X : DState} (b : Byte) (htables : s.tables = Tables.built) (hrun : s.inst.run = some r)
    (hcar : Carries r.variant s.inst X) :
    ∃ t, byteStep b s = .next t ∧ Carries r.variant t.inst (delta X b) ∧ t.inst.idx = s.inst.idx + 1 := by
  cases hv : r.variant.rawState with
  | true =>
    have hS := (carries_raw hv _ _).mp hcar
    exact ⟨_, byteStep_raw htables hrun hv hS, (carries_raw hv _ _).mpr rfl, rfl⟩
  | false =>
    have hOFF := (carries_premul hv _ _).mp hcar
    exact ⟨_, byteStep_premul htables hrun hv, (carries_premul hv _ _).mpr (premulStep_built X b _ hOFF), rfl⟩

end

/-! ### VALIDATE (R202) -/

/-- The five VALIDATE commands differ in nothing but the variant they give the prologue. -/
theorem exec_validateInstr (v : Variant) (s : State) : exec (validateInstr v) s = command (prologue v) s := by
  cases v <;> rfl

/-- The state in which a run begins, for both kinds of carried register at once. -/
theorem State.beginRun_eq (s : State) (v : Variant) (slice : List Byte) :
    s.beginRun v slice = { s with inst := { s.inst with
      done := false, idx := 0
      s := if v.rawState then s.inst.init else s.inst.s
      off := if v.rawState then s.inst.off else premulLoad s.inst.init
      run := some ⟨v, slice⟩ } } := by
  cases v <;> rfl

/-! ### Built tables (R59, R155, R254) -/

section
variable {s t : State}

/-- No command changes built tables: BUILD is a no-op once they are there (R155). -/
theorem exec_cmd_keeps_built_tables {i : Instr} {w : CmdWord} (hready : s.tblReady = true) (hw : encode i = .cmd w)
    (hexec : exec i s = .next t) : t.tables = s.tables ∧ t.tblReady = true := by
  obtain rfl | ⟨hnot, -⟩ | ⟨e, -, rfl⟩ | ⟨-, -, v, X, slice, -, -, rfl⟩ := exec_cmd_cases hw hexec
  · exact ⟨rfl, hready⟩
  · exact absurd hready (by simp [hnot])
  · exact ⟨rfl, hready⟩
  · exact ⟨s.beginRun_tables v slice, by simpa using hready⟩

theorem hostMove_keeps_built_tables {m : HostMove} (hready : s.tblReady = true)
    (hmove : perform (hostMove m s) = .next t) : (t.tables = s.tables ∧ t.tblReady = true) ∨ m = .reset := by
  obtain ⟨w, i, -, hi, hexec⟩ | ⟨hm, -, -⟩ | ⟨c, -, rfl⟩ | ⟨n, -, -, rfl⟩ | ⟨bytes, -, rfl⟩ | ⟨k, b, -, rfl⟩ |
    ⟨r, q, v, -, rfl⟩ | ⟨-, -, rfl⟩ := hostMove_cases hmove
  · exact .inl (exec_cmd_keeps_built_tables hready (Laws.encode_of_decodeCmd hi) hexec)
  · exact .inr hm
  all_goals exact .inl ⟨rfl, hready⟩

/-- Whatever is done in a turn keeps built tables, but for a RESET that the host asserts between commands. -/
theorem perform_fetch_keeps_built_tables (hready : s.tblReady = true) (hnext : perform (fetch s) = .next t) :
    (t.tables = s.tables ∧ t.tblReady = true) ∨ (s.inst.run = none ∧ s.inst.moves.head? = some .reset) := by
  obtain ⟨r, b, -, -, hbyte⟩ | ⟨r, -, -, rfl⟩ | ⟨-, -, rfl⟩ | ⟨m, ms, hrun, hmoves, hmove⟩ := perform_fetch_cases hnext
  · obtain ⟨-, -, ⟨-, n, rfl⟩ | ⟨-, o, rfl⟩⟩ := byteStep_cases hbyte
    all_goals exact .inl ⟨rfl, hready⟩
  · exact .inl ⟨rfl, hready⟩
  · exact .inl ⟨rfl, hready⟩
  · obtain hkeeps | rfl := hostMove_keeps_built_tables (s := s.setMoves ms) hready hmove
    · exact .inl hkeeps
    · exact .inr ⟨hrun, by rw [hmoves]; rfl⟩

end

/-! ### A run in progress (R56, R220) -/

/-- Under the invariant a run in progress goes on to a next state: a byte step while bytes are left, over the built
tables and from the code of a state, and the epilogue after them. -/
theorem perform_fetch_next_of_run {s : State} {r : Run} (h : Inv s) (hrun : s.inst.run = some r) :
    ∃ t, perform (fetch s) = .next t := by
  by_cases hleft : s.inst.idx < r.slice.length
  · obtain ⟨-, -, -, -, -, -, -, X, -, hcar, -⟩ := (instInv_iff_of_run hrun).mp (inv_acting h)
    obtain ⟨t, ht, -⟩ := byteStep_applies_delta r.slice[s.inst.idx] (tables_built_of_run h hrun) hrun hcar
    exact ⟨t, by rw [perform_fetch_byte hrun (List.getElem?_eq_getElem hleft), ht]⟩
  · exact ⟨_, perform_fetch_end hrun (Nat.le_of_not_lt hleft)⟩

end Sys2Proof.Machine
end

section
/-! SUPPORT. The statements about memory: the tables a byte word reads, the slice a VALIDATE takes, the buffer of the host,
and that built tables stay and a run over them never stops. -/

namespace Sys2Proof.Machine

open Sys2Proof.Safety

/-- Settles O25: the word executes as the byte step, which moves the carried state by `delta` in both kinds of variant. -/
theorem everyByteWordAppliesDelta : Obligations.EveryByteWordAppliesDelta := by
  unfold Obligations.EveryByteWordAppliesDelta
  intro s r X b i hi htables hrun hcar
  rw [exec_of_decodeByte hi]
  exact byteStep_applies_delta b htables hrun hcar

/-- Settles O30: a turn touches no table, and what is then done keeps the built ones. -/
theorem builtTablesNeverChange : Obligations.BuiltTablesNeverChange := by
  unfold Obligations.BuiltTablesNeverChange
  intro s u t hready hturn hstep
  obtain ⟨-, -, htables, hreadyEq, -⟩ := takeTurn_spec hturn
  rw [step_of_takeTurn hturn] at hstep
  rw [← htables]
  exact perform_fetch_keeps_built_tables (hreadyEq.trans hready) hstep

/-- Settles O35: the prologue passes its first two tests, and the snapshot alone decides. -/
theorem validateBeginsExactlyOnSuppliedSlice : Obligations.ValidateBeginsExactlyOnSuppliedSlice := by
  unfold Obligations.ValidateBeginsExactlyOnSuppliedSlice
  intro s v X herr hready hX
  rw [exec_validateInstr, command_runs _ _ herr]
  constructor
  · intro bytes hlen hreads
    rw [prologue_begins hready hX (snapshot_of_reads hlen hreads), State.beginRun_eq, hX]
    rfl
  · intro a ha hread
    exact prologue_stops hready hX (snapshot_eq_none ha hread)

/-- Settles O49: both moves write the buffer alone, a supply all of it and a put one index. -/
theorem hostFillsItsBuffer : Obligations.HostFillsItsBuffer := by
  unfold Obligations.HostFillsItsBuffer
  intro s t m ms hturn hrun hmoves
  rw [step_hostMove hturn hrun hmoves]
  constructor
  · rintro bytes rfl
    exact ⟨Memory.ofBytesAt 0 bytes, rfl, Memory.read_supplied bytes⟩
  · rintro i b rfl
    exact ⟨t.inst.input.write i b, rfl, fun a => Memory.read_write t.inst.input i a b⟩

/-- Settles O55: the turn keeps the invariant, under which a run goes on. -/
theorem runInProgressNeverStops : Obligations.RunInProgressNeverStops := by
  unfold Obligations.RunInProgressNeverStops
  intro s u r hinv hturn hrun
  rw [step_of_takeTurn hturn]
  exact perform_fetch_next_of_run (inv_takeTurn hinv hturn) hrun

/-- Settles O59: in each variant the byte step is one read, whose value, if there is one, is carried. -/
theorem byteWordReadsTheTableOfItsVariant : Obligations.ByteWordReadsTheTableOfItsVariant := by
  unfold Obligations.ByteWordReadsTheTableOfItsVariant
  intro s r b i hi hrun
  rw [exec_of_decodeByte hi]
  refine ⟨fun hv => (byteStep_ds hrun hv).symm ▸ ?_, fun hv => (byteStep_db hrun hv).symm ▸ ?_,
    fun hv => (byteStep_p4 hrun hv).symm ▸ ?_, fun hv => (byteStep_p6 hrun hv).symm ▸ ?_⟩
  all_goals
    constructor
    · intro entry hentry
      rw [hentry]
      rfl
    · intro habsent
      rw [habsent]
      rfl

end Sys2Proof.Machine
end

section
/-! SUPPORT. The decode tables: no word matches two rows, so that whichever row a word matches is the one the decoder finds,
and the word of a well-formed instruction matches the row that makes that instruction (R80, R82, R83). -/

namespace Sys2Proof.Laws

/-! ### Blocks and tables of blocks -/

/-- Two aligned blocks that share a word fix the same bits where both masks are set. -/
theorem blocks_agree {n : Nat} {mask mask' value value' w : BitVec n} (h : w &&& mask = value)
    (h' : w &&& mask' = value') : value &&& mask' = value' &&& mask := by
  rw [← h, ← h', BitVec.and_assoc, BitVec.and_assoc, BitVec.and_comm mask]

/-- Where no two rows of a table match at once, a row that matches is the only one. -/
theorem filter_eq_singleton_of_pairwise {α : Type} {p : α → Bool} {l : List α} {r : α}
    (hdisj : l.Pairwise fun r r' => ¬ (p r = true ∧ p r' = true)) (hr : r ∈ l) (hp : p r = true) : l.filter p = [r] := by
  induction l with
  | nil => cases hr
  | cons x xs ih =>
    obtain ⟨hx, hxs⟩ := List.pairwise_cons.mp hdisj
    obtain rfl | hmem := List.mem_cons.mp hr
    · have hnone : xs.filter p = [] := List.filter_eq_nil_iff.mpr fun y hy hpy => hx y hy ⟨hp, hpy⟩
      rw [List.filter_cons_of_pos hp, hnone]
    · have hpx : ¬ p x = true := fun hpx => hx r hmem ⟨hpx, hp⟩
      rw [List.filter_cons_of_neg hpx, ih hxs hmem]

/-! ### The rows of R82 -/

theorem byteRows_disjoint (b : Byte) :
    byteRows.Pairwise fun r r' => ¬ (inBlock8 r.mask r.value b = true ∧ inBlock8 r'.mask r'.value b = true) := by
  have hdiffer : byteRows.Pairwise fun r r' => r.value &&& r'.mask ≠ r'.value &&& r.mask := by decide
  refine hdiffer.imp fun hne hboth => hne ?_
  exact blocks_agree (beq_iff_eq.mp hboth.1) (beq_iff_eq.mp hboth.2)

theorem byteRows_filter {r : ByteRow} {b : Byte} (hr : r ∈ byteRows) (hb : inBlock8 r.mask r.value b = true) :
    (byteRows.filter fun r' => inBlock8 r'.mask r'.value b) = [r] :=
  filter_eq_singleton_of_pairwise (byteRows_disjoint b) hr hb

/-- Whichever row a byte matches is the one that the decoder finds. -/
theorem decodeByte_of_row {r : ByteRow} {b : Byte} (hr : r ∈ byteRows) (hb : inBlock8 r.mask r.value b = true) :
    decodeByte b = some (r.make b) := by
  rw [decodeByte, ← List.head?_filter, byteRows_filter hr hb]
  rfl

/-- A decoded byte was made by a row that it matches. -/
theorem row_of_decodeByte {b : Byte} {i : Instr} (h : decodeByte b = some i) :
    ∃ r ∈ byteRows, inBlock8 r.mask r.value b = true ∧ r.make b = i := by
  obtain ⟨r, hfind, hmake⟩ := Option.map_eq_some_iff.mp h
  have hblock := List.find?_some hfind
  exact ⟨r, List.mem_of_find?_eq_some hfind, hblock, hmake⟩

/-- A row makes well-formed instructions of the bytes that match it. -/
theorem byteRows_make_wellFormed : ∀ r ∈ byteRows, ∀ b, inBlock8 r.mask r.value b = true → (r.make b).WellFormed := by
  simp [byteRows, Instr.WellFormed, Instr.wellFormed]

/-! ### The rows of R83 -/

theorem cmdRows_disjoint (w : CmdWord) :
    cmdRows.Pairwise fun r r' => ¬ (inBlock5 r.mask r.value w = true ∧ inBlock5 r'.mask r'.value w = true) := by
  have hdiffer : cmdRows.Pairwise fun r r' => r.value &&& r'.mask ≠ r'.value &&& r.mask := by decide
  refine hdiffer.imp fun hne hboth => hne ?_
  exact blocks_agree (beq_iff_eq.mp hboth.1) (beq_iff_eq.mp hboth.2)

theorem cmdRows_filter {r : CmdRow} {w : CmdWord} (hr : r ∈ cmdRows) (hw : inBlock5 r.mask r.value w = true) :
    (cmdRows.filter fun r' => inBlock5 r'.mask r'.value w) = [r] :=
  filter_eq_singleton_of_pairwise (cmdRows_disjoint w) hr hw

/-- Whichever row a command word matches is the one that the decoder finds. -/
theorem decodeCmd_of_row {r : CmdRow} {w : CmdWord} (hr : r ∈ cmdRows) (hw : inBlock5 r.mask r.value w = true) :
    decodeCmd w = some (r.make w) := by
  rw [decodeCmd, ← List.head?_filter, cmdRows_filter hr hw]
  rfl

/-- A decoded command word was made by a row that it matches. -/
theorem row_of_decodeCmd {w : CmdWord} {i : Instr} (h : decodeCmd w = some i) :
    ∃ r ∈ cmdRows, inBlock5 r.mask r.value w = true ∧ r.make w = i := by
  obtain ⟨r, hfind, hmake⟩ := Option.map_eq_some_iff.mp h
  have hblock := List.find?_some hfind
  exact ⟨r, List.mem_of_find?_eq_some hfind, hblock, hmake⟩

/-- A row makes well-formed instructions of the command words that match it. -/
theorem cmdRows_make_wellFormed : ∀ r ∈ cmdRows, ∀ w, inBlock5 r.mask r.value w = true → (r.make w).WellFormed := by
  simp [cmdRows, Instr.WellFormed, Instr.wellFormed]

/-! ### From an instruction to its row, by the row's place in its table -/

theorem decode_byte_at {r : ByteRow} {b : Byte} (n : Nat) (hr : byteRows[n]? = some r)
    (hb : inBlock8 r.mask r.value b = true) : decode (.byte b) = some (r.make b) :=
  decodeByte_of_row (List.mem_of_getElem? hr) hb

theorem decode_cmd_at {r : CmdRow} {w : CmdWord} (n : Nat) (hr : cmdRows[n]? = some r)
    (hw : inBlock5 r.mask r.value w = true) : decode (.cmd w) = some (r.make w) :=
  decodeCmd_of_row (List.mem_of_getElem? hr) hw

/-- The word of a well-formed instruction lies in the block of that instruction's row: for an instruction that carries its
word this is well-formedness, and a row of one word holds the word of its pattern. -/
theorem decode_encode {i : Instr} (h : i.WellFormed) : decode (encode i) = some i := by
  cases i with
  | ascii b => exact decode_byte_at 0 rfl h
  | cont80 b => exact decode_byte_at 1 rfl h
  | cont90 b => exact decode_byte_at 2 rfl h
  | contA0 b => exact decode_byte_at 3 rfl h
  | illegalC0 b => exact decode_byte_at 4 rfl h
  | lead2C2 b => exact decode_byte_at 5 rfl h
  | lead2C4 b => exact decode_byte_at 6 rfl h
  | lead2C8 b => exact decode_byte_at 7 rfl h
  | lead2D0 b => exact decode_byte_at 8 rfl h
  | lead3Low => exact decode_byte_at 9 rfl rfl
  | lead3E1 => exact decode_byte_at 10 rfl rfl
  | lead3E2 b => exact decode_byte_at 11 rfl h
  | lead3E4 b => exact decode_byte_at 12 rfl h
  | lead3E8 b => exact decode_byte_at 13 rfl h
  | lead3EC => exact decode_byte_at 14 rfl rfl
  | lead3High => exact decode_byte_at 15 rfl rfl
  | lead3EE b => exact decode_byte_at 16 rfl h
  | lead4Low => exact decode_byte_at 17 rfl rfl
  | lead4F1 => exact decode_byte_at 18 rfl rfl
  | lead4F2 b => exact decode_byte_at 19 rfl h
  | lead4High => exact decode_byte_at 20 rfl rfl
  | illegalF5 => exact decode_byte_at 21 rfl rfl
  | illegalF6 b => exact decode_byte_at 22 rfl h
  | illegalF8 b => exact decode_byte_at 23 rfl h
  | nop => exact decode_cmd_at 0 rfl rfl
  | build => exact decode_cmd_at 1 rfl rfl
  | validateDs => exact decode_cmd_at 2 rfl rfl
  | validateDb => exact decode_cmd_at 3 rfl rfl
  | validateP4 => exact decode_cmd_at 4 rfl rfl
  | validateP6 => exact decode_cmd_at 5 rfl rfl
  | validateP6u => exact decode_cmd_at 6 rfl rfl
  | reserved01 => exact decode_cmd_at 7 rfl rfl
  | reserved02 w => exact decode_cmd_at 8 rfl h
  | reserved04 w => exact decode_cmd_at 9 rfl h
  | reserved09 => exact decode_cmd_at 10 rfl rfl
  | reserved0A w => exact decode_cmd_at 11 rfl h
  | reserved0C w => exact decode_cmd_at 12 rfl h
  | reserved15 => exact decode_cmd_at 13 rfl rfl
  | reserved16 w => exact decode_cmd_at 14 rfl h
  | reserved18 w => exact decode_cmd_at 15 rfl h

/-! ### The statements about encodings -/

/-- Settles O1, instruction by instruction: its row is one that its word matches, and no word matches two. -/
theorem decodeOfEncodeIsIdentity : Obligations.DecodeOfEncodeIsIdentity := by
  unfold Obligations.DecodeOfEncodeIsIdentity
  intro i hwf
  exact decode_encode hwf

/-- Settles O2: some row decodes the word, no other row matches it, and the row makes a well-formed instruction. -/
theorem everyWordHasExactlyOneRow : Obligations.EveryWordHasExactlyOneRow := by
  unfold Obligations.EveryWordHasExactlyOneRow
  constructor
  · intro b
    obtain ⟨i, hi, hword⟩ := decodeByte_total b
    obtain ⟨r, hr, hb, rfl⟩ := row_of_decodeByte hi
    refine ⟨by rw [byteRows_filter hr hb]; rfl, r.make b, hi, byteRows_make_wellFormed r hr b hb, ?_, hword⟩
    rw [← encode_format, hword]
    rfl
  · intro w
    obtain ⟨i, hi, hword⟩ := decodeCmd_total w
    obtain ⟨r, hr, hw, rfl⟩ := row_of_decodeCmd hi
    refine ⟨by rw [cmdRows_filter hr hw]; rfl, r.make w, hi, cmdRows_make_wellFormed r hr w hw, ?_, hword⟩
    rw [← encode_format, hword]
    rfl

/-- Settles O3: each of the nine words is the word of the well-formed instruction that it stands for. -/
theorem wordsOfTheTablesDecode : Obligations.WordsOfTheTablesDecode :=
  ⟨decode_encode (i := .ascii 0x48) rfl, decode_encode (i := .cont80 0x8F) rfl, decode_encode (i := .lead2C2 0xC3) rfl,
    decode_encode (i := .lead3High) rfl, decode_encode (i := .lead4High) rfl, decode_encode (i := .illegalF8 0xFF) rfl,
    decode_encode (i := .build) rfl, decode_encode (i := .validateP6u) rfl,
    decode_encode (i := .reserved18 0b11101) rfl⟩

end Sys2Proof.Laws
end

section
/-! SUPPORT. The grammar of RFC 3629 (R146) against the transition function: which sequences bring each of the states to
`Ok`, and that those which bring `Ok` to `Ok` are the sequences of characters (R110, R145). -/

namespace Sys2Proof.Machine

open Sys2Proof.Safety

/-! ### `delta*` (R131, R132) -/

@[simp] theorem deltaStar_nil (X : DState) : deltaStar X [] = X := rfl

theorem deltaStar_cons (X : DState) (b : Byte) (w : List Byte) : deltaStar X (b :: w) = deltaStar (delta X b) w := rfl

/-- `Fail` is never left. -/
@[simp] theorem deltaStar_fail (w : List Byte) : deltaStar .fail w = .fail := by
  induction w with
  | nil => rfl
  | cons b w ih => exact ih

/-! ### The rows of the transition function (R111 to R127) -/

/-- A byte in the range of a row is taken by that row: the rows of one state have disjoint ranges. -/
theorem delta_of_row {X Y : DState} {lo hi : Nat} {b : Byte} (hrow : (X, lo, hi, Y) ∈ grammarRows)
    (hb : inRange lo hi b = true) : delta X b = Y := by
  have hrows : ∀ row ∈ grammarRows, ∀ b, inRange row.2.1 row.2.2.1 b = true → delta row.1 b = row.2.2.2 := by
    simp only [grammarRows, List.forall_mem_cons]
    refine ⟨?_, ?_, ?_, ?_, ?_, ?_, ?_, ?_, ?_, ?_, ?_, ?_, ?_, ?_, ?_, ?_, ?_, List.forall_mem_nil _⟩
    all_goals
      intro b hb
      grind [inRange, delta]
  exact hrows _ hrow b hb

/-! ### The sequences that bring a state to `Ok` -/

/-- A state that `delta` leaves on one range of bytes, and for one other state, needs a byte of that range first. -/
theorem deltaStar_eq_ok_iff_of_range {X Y : DState} {lo hi : Nat} {w : List Byte} (hX : X ≠ .ok)
    (hdelta : ∀ b, delta X b = if inRange lo hi b then Y else .fail) :
    deltaStar X w = .ok ↔ ∃ b v, w = b :: v ∧ inRange lo hi b = true ∧ deltaStar Y v = .ok := by
  cases w with
  | nil => simp [hX]
  | cons b v =>
    rw [deltaStar_cons, hdelta]
    split
    case isTrue hb => simp [hb]
    case isFalse hb => simp [hb]

section
variable {w : List Byte}

theorem deltaStar_tail1 : deltaStar .tail1 w = .ok ↔ ∃ b v, w = b :: v ∧ IsTail b ∧ deltaStar .ok v = .ok :=
  deltaStar_eq_ok_iff_of_range (by decide) fun _ => rfl

theorem deltaStar_tail2 : deltaStar .tail2 w = .ok ↔ ∃ b v, w = b :: v ∧ IsTail b ∧ deltaStar .tail1 v = .ok :=
  deltaStar_eq_ok_iff_of_range (by decide) fun _ => rfl

theorem deltaStar_tail3 : deltaStar .tail3 w = .ok ↔ ∃ b v, w = b :: v ∧ IsTail b ∧ deltaStar .tail2 v = .ok :=
  deltaStar_eq_ok_iff_of_range (by decide) fun _ => rfl

theorem deltaStar_lead3Low :
    deltaStar .lead3Low w = .ok ↔ ∃ b v, w = b :: v ∧ inRange 0xA0 0xBF b = true ∧ deltaStar .tail1 v = .ok :=
  deltaStar_eq_ok_iff_of_range (by decide) fun _ => rfl

theorem deltaStar_lead3High :
    deltaStar .lead3High w = .ok ↔ ∃ b v, w = b :: v ∧ inRange 0x80 0x9F b = true ∧ deltaStar .tail1 v = .ok :=
  deltaStar_eq_ok_iff_of_range (by decide) fun _ => rfl

theorem deltaStar_lead4Low :
    deltaStar .lead4Low w = .ok ↔ ∃ b v, w = b :: v ∧ inRange 0x90 0xBF b = true ∧ deltaStar .tail2 v = .ok :=
  deltaStar_eq_ok_iff_of_range (by decide) fun _ => rfl

theorem deltaStar_lead4High :
    deltaStar .lead4High w = .ok ↔ ∃ b v, w = b :: v ∧ inRange 0x80 0x8F b = true ∧ deltaStar .tail2 v = .ok :=
  deltaStar_eq_ok_iff_of_range (by decide) fun _ => rfl

end

/-! ### Characters and octets (R146) -/

theorem inRange_self {n : Nat} {a : Byte} (h : inRange n n a = true) : a = BitVec.ofNat 8 n := by
  obtain ⟨hlo, hhi⟩ : n ≤ a.toNat ∧ a.toNat ≤ n := by simpa [inRange] using h
  rw [Nat.le_antisymm hlo hhi, BitVec.ofNat_toNat, BitVec.setWidth_eq]

theorem utf8Char_length_pos {u : List Byte} (h : Utf8Char u) : 0 < u.length := by
  cases h
  all_goals simp

/-- A sequence that brings `Ok` to `Ok` begins with a character, after which it is in `Ok` again. -/
theorem exists_utf8Char_of_deltaStar_ok {a : Byte} {w : List Byte} (h : deltaStar .ok (a :: w) = .ok) :
    ∃ u v, Utf8Char u ∧ a :: w = u ++ v ∧ deltaStar .ok v = .ok := by
  simp only [deltaStar_cons, delta] at h
  split_ifs at h with ha ha ha ha ha ha ha ha ha
  · exact ⟨[a], w, .one a ha, rfl, h⟩
  · obtain ⟨b, v, rfl, hb, hv⟩ := deltaStar_tail1.mp h
    exact ⟨[a, b], v, .two a b ha hb, rfl, hv⟩
  · obtain rfl := inRange_self ha
    obtain ⟨b, _, rfl, hb, h⟩ := deltaStar_lead3Low.mp h
    obtain ⟨c, v, rfl, hc, hv⟩ := deltaStar_tail1.mp h
    exact ⟨[0xE0, b, c], v, .threeE0 b c hb hc, rfl, hv⟩
  · obtain ⟨b, _, rfl, hb, h⟩ := deltaStar_tail2.mp h
    obtain ⟨c, v, rfl, hc, hv⟩ := deltaStar_tail1.mp h
    exact ⟨[a, b, c], v, .threeE1 a b c ha hb hc, rfl, hv⟩
  · obtain rfl := inRange_self ha
    obtain ⟨b, _, rfl, hb, h⟩ := deltaStar_lead3High.mp h
    obtain ⟨c, v, rfl, hc, hv⟩ := deltaStar_tail1.mp h
    exact ⟨[0xED, b, c], v, .threeED b c hb hc, rfl, hv⟩
  · obtain ⟨b, _, rfl, hb, h⟩ := deltaStar_tail2.mp h
    obtain ⟨c, v, rfl, hc, hv⟩ := deltaStar_tail1.mp h
    exact ⟨[a, b, c], v, .threeEE a b c ha hb hc, rfl, hv⟩
  · obtain rfl := inRange_self ha
    obtain ⟨b, _, rfl, hb, h⟩ := deltaStar_lead4Low.mp h
    obtain ⟨c, _, rfl, hc, h⟩ := deltaStar_tail2.mp h
    obtain ⟨d, v, rfl, hd, hv⟩ := deltaStar_tail1.mp h
    exact ⟨[0xF0, b, c, d], v, .fourF0 b c d hb hc hd, rfl, hv⟩
  · obtain ⟨b, _, rfl, hb, h⟩ := deltaStar_tail3.mp h
    obtain ⟨c, _, rfl, hc, h⟩ := deltaStar_tail2.mp h
    obtain ⟨d, v, rfl, hd, hv⟩ := deltaStar_tail1.mp h
    exact ⟨[a, b, c, d], v, .fourF1 a b c d ha hb hc hd, rfl, hv⟩
  · obtain rfl := inRange_self ha
    obtain ⟨b, _, rfl, hb, h⟩ := deltaStar_lead4High.mp h
    obtain ⟨c, _, rfl, hc, h⟩ := deltaStar_tail2.mp h
    obtain ⟨d, v, rfl, hd, hv⟩ := deltaStar_tail1.mp h
    exact ⟨[0xF4, b, c, d], v, .fourF4 b c d hb hc hd, rfl, hv⟩
  · simp at h

/-- A byte of a row's range goes on by that row. -/
theorem deltaStar_cons_of_row {X Y Z : DState} {lo hi : Nat} {b : Byte} {w : List Byte}
    (hrow : (X, lo, hi, Y) ∈ grammarRows) (hb : inRange lo hi b = true) (hw : deltaStar Y w = Z) :
    deltaStar X (b :: w) = Z := by
  rw [deltaStar_cons, delta_of_row hrow hb, hw]

/-- Each of the nine alternatives is a path of rows from `Ok` to `Ok`. -/
theorem deltaStar_utf8Char_append {u v : List Byte} (hu : Utf8Char u) (hv : deltaStar .ok v = .ok) :
    deltaStar .ok (u ++ v) = .ok := by
  have tail1 : ∀ d, IsTail d → deltaStar .tail1 (d :: v) = .ok := fun d hd =>
    deltaStar_cons_of_row (Y := .ok) (by decide) hd hv
  have tail2 : ∀ c d, IsTail c → IsTail d → deltaStar .tail2 (c :: d :: v) = .ok := fun c d hc hd =>
    deltaStar_cons_of_row (Y := .tail1) (by decide) hc (tail1 d hd)
  cases hu with
  | one a ha => exact deltaStar_cons_of_row (Y := .ok) (by decide) ha hv
  | two a b ha hb => exact deltaStar_cons_of_row (Y := .tail1) (by decide) ha (tail1 b hb)
  | threeE0 b c hb hc =>
    have hpath : deltaStar .lead3Low (b :: c :: v) = .ok := deltaStar_cons_of_row (by decide) hb (tail1 c hc)
    exact deltaStar_cons_of_row (lo := 0xE0) (hi := 0xE0) (by decide) rfl hpath
  | threeE1 a b c ha hb hc => exact deltaStar_cons_of_row (by decide) ha (tail2 b c hb hc)
  | threeED b c hb hc =>
    have hpath : deltaStar .lead3High (b :: c :: v) = .ok := deltaStar_cons_of_row (by decide) hb (tail1 c hc)
    exact deltaStar_cons_of_row (lo := 0xED) (hi := 0xED) (by decide) rfl hpath
  | threeEE a b c ha hb hc => exact deltaStar_cons_of_row (by decide) ha (tail2 b c hb hc)
  | fourF0 b c d hb hc hd =>
    have hpath : deltaStar .lead4Low (b :: c :: d :: v) = .ok := deltaStar_cons_of_row (by decide) hb (tail2 c d hc hd)
    exact deltaStar_cons_of_row (lo := 0xF0) (hi := 0xF0) (by decide) rfl hpath
  | fourF1 a b c d ha hb hc hd =>
    have hpath : deltaStar .tail3 (b :: c :: d :: v) = .ok := deltaStar_cons_of_row (by decide) hb (tail2 c d hc hd)
    exact deltaStar_cons_of_row (by decide) ha hpath
  | fourF4 b c d hb hc hd =>
    have hpath : deltaStar .lead4High (b :: c :: d :: v) = .ok := deltaStar_cons_of_row (by decide) hb (tail2 c d hc hd)
    exact deltaStar_cons_of_row (lo := 0xF4) (hi := 0xF4) (by decide) rfl hpath

/-- The automaton accepts the grammar (R145, R146). -/
theorem deltaStar_ok_iff_utf8Octets (w : List Byte) : deltaStar .ok w = .ok ↔ Utf8Octets w := by
  constructor
  · intro h
    induction hn : w.length using Nat.strong_induction_on generalizing w with
    | h n ih =>
      cases w with
      | nil => exact .empty
      | cons a w =>
        obtain ⟨u, v, hu, hsplit, hv⟩ := exists_utf8Char_of_deltaStar_ok h
        have hshorter : v.length < n := by
          rw [← hn, hsplit, List.length_append]
          exact Nat.lt_add_of_pos_left (utf8Char_length_pos hu)
        rw [hsplit]
        exact .more u v hu (ih v.length hshorter v hv rfl)
  · intro h
    induction h with
    | empty => rfl
    | more u v hu _ ih => exact deltaStar_utf8Char_append hu ih

end Sys2Proof.Machine
end

section
/-! SUPPORT. A whole run, step by step: the state after each byte of the slice, and from the host's first move to the state in
which the run has ended (R92, R202, R203, R209). -/

namespace Sys2Proof.Safety

open Sys2Proof.Machine

/-! ### The carried offset (R182, R186) -/

theorem offAfter_concat (X : DState) (w : List Byte) (b : Byte) :
    offAfter X (w ++ [b]) = premulStep (buildRow6p b) (offAfter X w) := by
  simp [offAfter]

theorem offAfter_take_succ {X : DState} {slice : List Byte} {k : Nat} {b : Byte} (hb : slice[k]? = some b) :
    offAfter X (slice.take (k + 1)) = premulStep (buildRow6p b) (offAfter X (slice.take k)) := by
  rw [List.take_add_one, hb]
  exact offAfter_concat X _ b

/-- Whatever its high bits are, `OFF` carries the state that the bytes lead to (R35). -/
theorem shiftAmount_offAfter (X : DState) (w : List Byte) :
    shiftAmount (offAfter X w) = premulLoad (code (deltaStar X w)) := by
  induction w using List.reverseRecOn with
  | nil => exact shiftAmount_load X
  | append_singleton w b ih =>
    rw [offAfter_concat, premulStep_built _ b _ ih]
    simp [deltaStar]

/-! ### The states of a run -/

/-- The state of a run of variant `v` on `bytes` from `X` once `k` bytes are consumed, as a function of the state in which its
VALIDATE was executed. -/
def midRun (v : Variant) (X : DState) (bytes : List Byte) (k : Nat) (s : State) : State :=
  { s with inst := { s.inst with
    done := false, idx := k, run := some ⟨v, bytes⟩
    s := if v.rawState then code (deltaStar X (bytes.take k)) else s.inst.s
    off := if v.rawState then s.inst.off else offAfter X (bytes.take k) } }

section
variable {s : State} {v : Variant} {X : DState} {bytes : List Byte}

theorem beginRun_eq_midRun (hX : s.inst.init = code X) : s.beginRun v bytes = midRun v X bytes 0 s := by
  rw [State.beginRun_eq, hX]
  rfl

theorem carries_midRun (k : Nat) : Carries v (midRun v X bytes k s).inst (deltaStar X (bytes.take k)) := by
  cases hv : v.rawState with
  | true => simp [carries_raw hv, midRun, hv]
  | false => simp [carries_premul hv, midRun, hv, shiftAmount_offAfter]

/-- One byte word of the run. -/
theorem step_midRun {k : Nat} (hbuilt : s.tables = Tables.built) (hturns : s.turns = []) (hk : k < bytes.length) :
    step (midRun v X bytes k s) = .next (midRun v X bytes (k + 1) s) := by
  have hb : bytes[k]? = some bytes[k] := List.getElem?_eq_getElem hk
  have hrun : (midRun v X bytes k s).inst.run = some ⟨v, bytes⟩ := rfl
  rw [step_of_takeTurn (takeTurn_nil (st := midRun v X bytes k s) hturns), perform_fetch_byte hrun hb]
  cases hv : v.rawState with
  | true =>
    have hS := (carries_raw hv _ _).mp (carries_midRun (s := s) (X := X) (bytes := bytes) k)
    rw [byteStep_raw (st := midRun v X bytes k s) hbuilt hrun hv hS, ← deltaStar_take_succ hb]
    simp [midRun, State.stepS, hv]
  | false =>
    rw [byteStep_premul (st := midRun v X bytes k s) hbuilt hrun hv]
    simp [midRun, State.stepOff, hv, offAfter_take_succ hb]

theorem stepN_midRun {k : Nat} (hbuilt : s.tables = Tables.built) (hturns : s.turns = []) (hk : k ≤ bytes.length) :
    stepN k (midRun v X bytes 0 s) = .next (midRun v X bytes k s) := by
  induction k with
  | zero => rfl
  | succ k ih =>
    rw [stepN_add k 1 (ih (Nat.le_of_succ_le hk)), stepN_succ_of_next 0 (step_midRun hbuilt hturns hk)]
    rfl

/-- The epilogue of the run. -/
theorem step_midRun_length (hturns : s.turns = []) :
    step (midRun v X bytes bytes.length s) = .next (afterRun v X bytes s) := by
  have hfinal : finalCode v (midRun v X bytes bytes.length s).inst = code (deltaStar X bytes) := by
    simpa using finalCode_of_carries (carries_midRun (v := v) (X := X) (bytes := bytes) (s := s) bytes.length)
  rw [step_of_takeTurn (takeTurn_nil (st := midRun v X bytes bytes.length s) hturns),
    perform_fetch_end (r := ⟨v, bytes⟩) rfl (Nat.le_refl _)]
  simp only [State.finishRun, hfinal]
  cases hv : v.rawState
  all_goals simp [midRun, afterRun, hv]

/-- From the prologue to the end: one step for each byte of the slice, and the epilogue (R209). -/
theorem stepN_beginRun (hbuilt : s.tables = Tables.built) (hturns : s.turns = []) (hX : s.inst.init = code X) :
    stepN (bytes.length + 1) (s.beginRun v bytes) = .next (afterRun v X bytes s) := by
  rw [beginRun_eq_midRun hX, stepN_add _ 1 (stepN_midRun hbuilt hturns (Nat.le_refl _)),
    stepN_succ_of_next 0 (step_midRun_length hturns)]
  rfl

/-! ### What the end of a run leaves -/

@[simp] theorem afterRun_turns : (afterRun v X bytes s).turns = s.turns := by
  cases v <;> rfl

@[simp] theorem afterRun_run : (afterRun v X bytes s).inst.run = none := by
  cases v <;> rfl

@[simp] theorem afterRun_moves : (afterRun v X bytes s).inst.moves = s.inst.moves := by
  cases v <;> rfl

@[simp] theorem afterRun_done : (afterRun v X bytes s).inst.done = true := by
  cases v <;> rfl

@[simp] theorem afterRun_result : (afterRun v X bytes s).inst.result = code (deltaStar X bytes) := by
  cases v <;> rfl

end

/-! ### The moves of a VALIDATE (R92) -/

/-- The state once the host has written the operands of `VALIDATE.v init=X, bytes=[...]` and its command word, with the moves
`rest` still to make. -/
def withOperands (X : DState) (bytes : List Byte) (rest : List HostMove) (s : State) : State :=
  (((s.setInit (code X)).setLen bytes.length).setInput (Memory.ofBytesAt 0 bytes)).setMoves rest

section
variable {s : State} {X : DState} {bytes : List Byte} {v : Variant} {m : HostMove} {ms rest : List HostMove}

/-- With no turn left and no run in progress a step makes the host's next move. -/
theorem step_move (hturns : s.turns = []) (hrun : s.inst.run = none) (hmoves : s.inst.moves = m :: ms) :
    step s = perform (hostMove m (s.setMoves ms)) :=
  step_hostMove (takeTurn_nil hturns) hrun hmoves

theorem step_writeInit {c : Code} (hturns : s.turns = []) (hrun : s.inst.run = none)
    (hmoves : s.inst.moves = .writeInit c :: ms) : step s = .next ((s.setMoves ms).setInit c) :=
  step_move hturns hrun hmoves

theorem step_writeLen {n : Nat} (hturns : s.turns = []) (hrun : s.inst.run = none)
    (hmoves : s.inst.moves = .writeLen n :: ms) (hfits : Config.lenFits s.params n = true) :
    step s = .next ((s.setMoves ms).setLen n) :=
  (step_move hturns hrun hmoves).trans (hostWriteLen_fits (s := s.setMoves ms) hfits)

theorem step_supply (hturns : s.turns = []) (hrun : s.inst.run = none)
    (hmoves : s.inst.moves = .supply bytes :: ms) :
    step s = .next ((s.setMoves ms).setInput (Memory.ofBytesAt 0 bytes)) :=
  step_move hturns hrun hmoves

theorem step_readStatus (hturns : s.turns = []) (hrun : s.inst.run = none)
    (hmoves : s.inst.moves = .read .status :: ms) :
    step s = .next ((s.setMoves ms).setReadOut .status (statusWord s).toNat) :=
  step_move hturns hrun hmoves

theorem decodeCmd_cmdWord (v : Variant) : decodeCmd v.cmdWord = some (validateInstr v) := by
  cases v <;> rfl

/-- A VALIDATE that passes its prologue begins the run. -/
theorem exec_validateInstr_begins (h : CanValidate s X bytes) : exec (validateInstr v) s = .next (s.beginRun v bytes) := by
  rw [exec_validateInstr, command_runs _ _ h.noFault, prologue_begins h.ready h.init h.slice]

/-- The write of a VALIDATE's command word, where the prologue passes, is the start of its run. -/
theorem step_writeCmd_validate (hturns : s.turns = []) (hrun : s.inst.run = none)
    (hmoves : s.inst.moves = .writeCmd v.cmdWord :: ms) (h : CanValidate (s.setMoves ms) X bytes) :
    step s = .next ((s.setMoves ms).beginRun v bytes) := by
  rw [step_move hturns hrun hmoves, hostMove, perform_ofDecoded (decodeCmd_cmdWord v), exec_validateInstr_begins h]

theorem canValidate_withOperands (h : Idle s) : CanValidate (withOperands X bytes rest s) X bytes where
  noFault := h.noFault
  ready := h.ready
  built := h.built
  init := rfl
  slice := snapshot_of_supplied _ bytes rfl rfl

/-- Three moves write the operands, and the fourth writes the command word, which begins the run. -/
theorem stepN_operands (h : Idle s) (hfits : Config.lenFits s.params bytes.length = true)
    (hmoves : s.inst.moves = validateMoves v X bytes ++ rest) :
    stepN 4 s = .next ((withOperands X bytes rest s).beginRun v bytes) := by
  have hcan : CanValidate (withOperands X bytes rest s) X bytes := canValidate_withOperands h
  obtain ⟨-, -, -, hrun, hturns⟩ := h
  refine Eq.trans (stepN_succ_of_next 3 (step_writeInit hturns hrun hmoves)) ?_
  refine Eq.trans (stepN_succ_of_next 2 (step_writeLen hturns hrun rfl hfits)) ?_
  refine Eq.trans (stepN_succ_of_next 1 (step_supply hturns hrun rfl)) ?_
  exact stepN_succ_of_next 0 (step_writeCmd_validate hturns hrun rfl hcan)

/-- All the moves of a VALIDATE, and the run they begin, to its end. -/
theorem stepN_validateMoves (h : Idle s) (hfits : Config.lenFits s.params bytes.length = true)
    (hmoves : s.inst.moves = validateMoves v X bytes ++ rest) :
    stepN (4 + (bytes.length + 1)) s = .next (afterRun v X bytes (withOperands X bytes rest s)) := by
  rw [stepN_add 4 _ (stepN_operands h hfits hmoves)]
  exact stepN_beginRun h.built h.noTurn rfl

end

end Sys2Proof.Safety

namespace Sys2Proof.Machine

open Sys2Proof.Safety

/-- Bit 4 of the word that a host reads from `STATUS` is `VALID` (R28). -/
theorem statusWord_testBit_valid (s : State) : (statusWord s).toNat.testBit 4 = s.inst.valid := by
  rw [BitVec.testBit_toNat, statusWord_valid]

/-- A run that has ended is `VALID` exactly when its final state is `Ok` (R28, R204). -/
theorem valid_afterRun_iff {s : State} {v : Variant} {X : DState} {bytes : List Byte} :
    (afterRun v X bytes s).inst.valid = true ↔ deltaStar X bytes = .ok := by
  rw [Inst.valid_iff, afterRun_done, afterRun_result]
  constructor
  · rintro ⟨-, hcode⟩
    exact code_injective _ _ hcode
  · intro hok
    exact ⟨rfl, congrArg code hok⟩

/-- Settles O44: the run ends, the host reads the `STATUS` of its end, and the automaton accepts the grammar. -/
theorem validExactlyWhenRfcGrammar : Obligations.ValidExactlyWhenRfcGrammar := by
  unfold Obligations.ValidExactlyWhenRfcGrammar
  intro s bytes v rest hidle hfits hmoves
  rw [isValidMoves, List.append_assoc] at hmoves
  have hend := stepN_validateMoves hidle hfits hmoves
  have hsteps : bytes.length + 6 = 4 + (bytes.length + 1) + 1 := by omega
  have hread := step_readStatus (s := afterRun v .ok bytes (withOperands .ok bytes (.read .status :: rest) s))
    (afterRun_turns.trans hidle.noTurn) afterRun_run afterRun_moves
  have hreached := (stepN_add _ 1 hend).trans (stepN_succ_of_next 0 hread)
  rw [hsteps]
  refine ⟨_, _, hreached, rfl, rfl, ?_⟩
  rw [statusWord_testBit_valid, valid_afterRun_iff, deltaStar_ok_iff_utf8Octets]

end Sys2Proof.Machine
end

section
/-! SUPPORT. The transition function: its seventeen rows with the default `Fail` (R110), the bytes owed, which each byte
after a lead lowers (R130), and the byte classes, range by range: the class of a byte determines `delta`, and so the
packed rows of the byte (R82, R133 to R147). -/

namespace Sys2Proof.Machine

theorem inRange_iff {lo hi : Nat} {b : Byte} : inRange lo hi b = true ↔ lo ≤ b.toNat ∧ b.toNat ≤ hi := by
  simp [inRange]

/-! ### The rows of the transition function (R110 to R127) -/

/-- The seventeen rows are all there are: a byte in none of the ranges of its state's rows leads to `Fail`. -/
theorem delta_eq_fail_of_no_row {X : DState} {b : Byte}
    (h : ∀ row ∈ grammarRows, row.1 = X → inRange row.2.1 row.2.2.1 b = false) : delta X b = .fail := by
  cases X
  all_goals
    simp only [grammarRows, List.forall_mem_cons] at h
    simp [delta, h]

/-! ### `delta*` and the bytes owed (R130 to R132) -/

theorem deltaStar_append (X : DState) (u v : List Byte) : deltaStar X (u ++ v) = deltaStar (deltaStar X u) v :=
  List.foldl_append

theorem bytesOwed_eq_zero_iff {X : DState} : bytesOwed X = 0 ↔ X = .ok ∨ X = .fail := by
  cases X
  all_goals decide

theorem bytesOwed_le (X : DState) : bytesOwed X ≤ 3 := by
  cases X
  all_goals decide

/-- Inside a sequence each byte, the right one or not, lowers the number of bytes owed. -/
theorem bytesOwed_delta_lt {X : DState} (h : bytesOwed X ≠ 0) (b : Byte) : bytesOwed (delta X b) < bytesOwed X := by
  cases X with
  | fail => exact absurd rfl h
  | ok => exact absurd rfl h
  | _ =>
    simp only [delta]
    split
    all_goals decide

/-- No state waits for more bytes than it owes. -/
theorem exists_take_owing_none {X : DState} {w : List Byte} (h : bytesOwed X ≤ w.length) :
    ∃ k ≤ bytesOwed X, bytesOwed (deltaStar X (w.take k)) = 0 := by
  induction w generalizing X with
  | nil => exact ⟨0, Nat.zero_le _, Nat.le_zero.mp h⟩
  | cons b w ih =>
    by_cases howed : bytesOwed X = 0
    · exact ⟨0, Nat.zero_le _, howed⟩
    · have hless := bytesOwed_delta_lt howed b
      rw [List.length_cons] at h
      obtain ⟨k, hk, hnone⟩ := ih (X := delta X b) (by omega)
      exact ⟨k + 1, by omega, hnone⟩

/-! ### The ranges of the byte classes (R82) -/

/-- The ranges of bytes that make up the classes, in ascending order: the first and the last byte of each. -/
def classRanges : List (ByteClass × Nat × Nat) :=
  [ (.ascii, 0x00, 0x7F),
    (.cont80, 0x80, 0x8F),
    (.cont90, 0x90, 0x9F),
    (.contA0, 0xA0, 0xBF),
    (.illegal, 0xC0, 0xC1),
    (.lead2, 0xC2, 0xDF),
    (.lead3Low, 0xE0, 0xE0),
    (.lead3, 0xE1, 0xEC),
    (.lead3High, 0xED, 0xED),
    (.lead3, 0xEE, 0xEF),
    (.lead4Low, 0xF0, 0xF0),
    (.lead4, 0xF1, 0xF3),
    (.lead4High, 0xF4, 0xF4),
    (.illegal, 0xF5, 0xFF) ]

section
variable {b : Byte}

theorem exists_classRange (b : Byte) : ∃ r ∈ classRanges, inRange r.2.1 r.2.2 b = true := by
  have hbyte := b.isLt
  simp only [inRange_iff, classRanges, List.exists_mem_cons_iff]
  omega

theorem classOf_of_range {r : ByteClass × Nat × Nat} (hr : r ∈ classRanges) (hb : inRange r.2.1 r.2.2 b = true) :
    classOf b = r.1 := by
  fin_cases hr
  all_goals grind [classOf, inRange]

/-- The bounds of a state's rows are bounds of ranges, so `delta` takes one value on a range: that of the column. -/
theorem delta_of_range {r : ByteClass × Nat × Nat} (hr : r ∈ classRanges) (hb : inRange r.2.1 r.2.2 b = true)
    (X : DState) : delta X b = column r.1 X := by
  fin_cases hr
  all_goals
    cases X
    all_goals
      simp only [column]
      grind [delta, inRange]

/-! ### The class of a byte determines `delta` (R147) -/

theorem delta_eq_column (X : DState) (b : Byte) : delta X b = column (classOf b) X := by
  obtain ⟨r, hr, hb⟩ := exists_classRange b
  rw [classOf_of_range hr hb, delta_of_range hr hb]

end

theorem mem_allStates (X : DState) : X ∈ allStates := by
  cases X
  all_goals decide

/-- The classes of two ranges are told apart by their columns. -/
theorem class_eq_of_column_eq : ∀ r ∈ classRanges, ∀ r' ∈ classRanges,
    (∀ X ∈ allStates, column r.1 X = column r'.1 X) → r.1 = r'.1 := by
  decide

theorem classOf_eq_iff {b c : Byte} : classOf b = classOf c ↔ ∀ X, delta X b = delta X c := by
  constructor
  · intro h X
    rw [delta_eq_column, delta_eq_column, h]
  · intro h
    obtain ⟨r, hr, hb⟩ := exists_classRange b
    obtain ⟨r', hr', hc⟩ := exists_classRange c
    rw [classOf_of_range hr hb, classOf_of_range hr' hc]
    refine class_eq_of_column_eq r hr r' hr' fun X _ => ?_
    rw [← delta_of_range hr hb, ← delta_of_range hr' hc, h]

/-- The classes of the 256 bytes in ascending order. -/
theorem map_classOf_allBytes :
    allBytes.map classOf = classRanges.flatMap fun r => List.replicate (r.2.2 + 1 - r.2.1) r.1 := by
  decide +kernel

/-- A class has as many bytes as its ranges together. -/
theorem count_classOf (c : ByteClass) : (allBytes.map classOf).count c =
    (classRanges.map fun r => if r.1 = c then r.2.2 + 1 - r.2.1 else 0).sum := by
  rw [map_classOf_allBytes, List.count_flatMap]
  simp only [Function.comp_def, List.count_replicate, beq_iff_eq]

/-! ### The rows of a class (R86 to R88, R147) -/

/-- The row with field width `w` that packs the column of a class, each next state's code in the given form. -/
def classRow (w : Nat) (form : Code → Row) (c : ByteClass) : Row := packRow w fun X => form (code (column c X))

theorem buildRow4_eq (b : Byte) : buildRow4 b = classRow 4 zext64 (classOf b) := by
  simp only [buildRow4, classRow, denseEntry, delta_eq_column]

theorem buildRow6p_eq (b : Byte) : buildRow6p b = classRow 6 premulLoad (classOf b) := by
  simp only [buildRow6p, classRow, denseEntry, delta_eq_column, premulLoad]

theorem buildRow6n_eq (b : Byte) : buildRow6n b = classRow 6 zext64 (classOf b) := by
  simp only [buildRow6n, classRow, denseEntry, delta_eq_column]

/-- The plain step reads the whole column back from a row of `ROW4`. -/
theorem buildRow4_eq_iff {b c : Byte} : buildRow4 b = buildRow4 c ↔ classOf b = classOf c := by
  constructor
  · intro h
    refine classOf_eq_iff.mpr fun X => code_injective _ _ ?_
    rw [← plainStep4_built X b, ← plainStep4_built X c, h]
  · intro h
    rw [buildRow4_eq, buildRow4_eq, h]

/-- The pre-multiplied step reads the whole column back from a row of `ROW6P`. -/
theorem buildRow6p_eq_iff {b c : Byte} : buildRow6p b = buildRow6p c ↔ classOf b = classOf c := by
  constructor
  · intro h
    refine classOf_eq_iff.mpr fun X => code_injective _ _ ?_
    have hdecode : ∀ a, premulDecode (premulStep (buildRow6p a) (premulLoad (code X))) = code (delta X a) := fun a =>
      premulDecode_of_carries _ _ (premulStep_built X a _ (shiftAmount_load X))
    rw [← hdecode b, ← hdecode c, h]
  · intro h
    rw [buildRow6p_eq, buildRow6p_eq, h]

/-- Two functions that tell the same elements apart take equally many values on a list. -/
theorem length_dedup_map_eq {α β γ : Type} [DecidableEq β] [DecidableEq γ] {f : α → β} {g : α → γ}
    (h : ∀ a a', f a = f a' ↔ g a = g a') (l : List α) : (l.map f).dedup.length = (l.map g).dedup.length := by
  induction l with
  | nil => rfl
  | cons a l ih =>
    have hmem : f a ∈ l.map f ↔ g a ∈ l.map g := by simp only [List.mem_map, h]
    by_cases ha : f a ∈ l.map f
    · rw [List.map_cons, List.map_cons, List.dedup_cons_of_mem ha, List.dedup_cons_of_mem (hmem.mp ha), ih]
    · rw [List.map_cons, List.map_cons, List.dedup_cons_of_notMem ha, List.dedup_cons_of_notMem (mt hmem.mpr ha),
        List.length_cons, List.length_cons, ih]

/-- As the bytes have twelve classes, a function that tells exactly the classes apart takes twelve values. -/
theorem length_dedup_of_classes {α : Type} [DecidableEq α] {f : Byte → α}
    (h : ∀ b c, f b = f c ↔ classOf b = classOf c) : (allBytes.map f).dedup.length = 12 := by
  rw [length_dedup_map_eq h, map_classOf_allBytes]
  decide +kernel

end Sys2Proof.Machine

namespace Sys2Proof.Safety

open Sys2Proof.Machine

/-! ### The rule of a class (R133 to R144) -/

/-- What the rule of a class lists: its column and its values of `ROW4`, `ROW6P` and `ROW6N`. -/
structure ClassValues (c : ByteClass) (col : DState → DState) (r4 r6 r6n : Row) : Prop where
  column : ∀ X ∈ allStates, column c X = col X
  row4 : classRow 4 zext64 c = r4
  row6p : classRow 6 premulLoad c = r6
  row6n : classRow 6 zext64 c = r6n

/-- The word of a byte follows the rule that lists what `delta` and the packed rows are for that byte. -/
theorem followsClassRule_of_byte {i : Instr} {b : Byte} {col : DState → DState} (hword : encode i = .byte b)
    (hcol : ∀ X, delta X b = col X) : FollowsClassRule i col (buildRow4 b) (buildRow6p b) (buildRow6n b) := by
  constructor
  · intro b' hb'
    obtain rfl : b = b' := TableWord.byte.inj (hword.symm.trans hb')
    exact ⟨readRow4_built b, readRow6p_built b, rfl⟩
  · intro s r X hbuilt hrun hcar
    rw [exec_of_encode_byte hword, ← hcol]
    cases hv : r.variant.rawState with
    | true =>
      have hS := (carries_raw hv _ _).mp hcar
      exact ⟨_, byteStep_raw hbuilt hrun hv hS, (carries_raw hv _ _).mpr rfl, fun _ => rfl,
        fun hpremul => absurd hpremul.symm Bool.false_ne_true⟩
    | false =>
      have hOFF := (carries_premul hv _ _).mp hcar
      have hstep : premulStep (buildRow6p b) s.inst.off = buildRow6p b >>> (6 * (code X).toNat) := by
        rw [premulStep, shiftAmount_toNat _ _ hOFF, Nat.mul_comm]
      exact ⟨_, byteStep_premul hbuilt hrun hv, (carries_premul hv _ _).mpr (premulStep_built X b _ hOFF),
        fun hraw => absurd hraw Bool.false_ne_true, fun _ => by rw [hstep]; rfl⟩

/-- A byte between the first and the last word of a row decodes to that row (R82). -/
theorem decodeByte_of_rowRange {i : Instr} {b : Byte} {lo hi : Nat} (hword : encode i = .byte b)
    (hrow : Laws.RowRange.Statement i) (hbounds : Laws.RowRange.bounds i = (lo, hi)) (hb : inRange lo hi b = true) :
    decodeByte b = some i := by
  simp only [Laws.RowRange.Statement, hword, hbounds] at hrow
  obtain ⟨-, hwf⟩ := hrow
  have hdecode := Laws.decode_encode (hwf.mpr (inRange_iff.mp hb))
  rwa [hword] at hdecode

/-- A row whose words lie in a range of the class decodes them and follows the rule of the class. -/
theorem ClassValues.word {c : ByteClass} {col : DState → DState} {r4 r6 r6n : Row} (h : ClassValues c col r4 r6 r6n)
    {i : Instr} {b : Byte} {lo hi : Nat} (hb : inRange lo hi b = true) (hword : encode i = .byte b)
    (hrow : Laws.RowRange.Statement i) (hbounds : Laws.RowRange.bounds i = (lo, hi))
    (hrange : ∃ r ∈ classRanges, r.1 = c ∧ r.2.1 ≤ lo ∧ hi ≤ r.2.2) :
    decodeByte b = some i ∧ FollowsClassRule i col r4 r6 r6n := by
  refine ⟨decodeByte_of_rowRange hword hrow hbounds hb, ?_⟩
  obtain ⟨r, hr, rfl, hlo, hhi⟩ := hrange
  obtain ⟨hblo, hbhi⟩ := inRange_iff.mp hb
  have hclass : classOf b = r.1 := classOf_of_range hr (inRange_iff.mpr ⟨hlo.trans hblo, hbhi.trans hhi⟩)
  have hcol : ∀ X, delta X b = col X := fun X => by rw [delta_eq_column, hclass, h.column X (mem_allStates X)]
  rw [← h.row4, ← h.row6p, ← h.row6n, ← hclass, ← buildRow4_eq, ← buildRow6p_eq, ← buildRow6n_eq]
  exact followsClassRule_of_byte hword hcol

end Sys2Proof.Safety
end

section
/-! SUPPORT. The statements about the transition function and about the byte words of each class (R110 to R147). -/

namespace Sys2Proof.Machine

open Sys2Proof.Safety

/-! ### The transition function -/

/-- Settles O9: a byte in the range of a row is taken by it, and a byte in none leads to `Fail`. -/
theorem deltaIsTheRowTable : Obligations.DeltaIsTheRowTable := by
  unfold Obligations.DeltaIsTheRowTable
  intro X b
  constructor
  · rintro F lo hi T hrow rfl hlo hhi
    exact delta_of_row hrow (inRange_iff.mpr ⟨hlo, hhi⟩)
  · intro hnone
    refine delta_eq_fail_of_no_row fun ⟨F, lo, hi, T⟩ hrow hF => Bool.eq_false_iff.mpr fun hb => ?_
    exact hnone F lo hi T hrow hF (inRange_iff.mp hb)

/-- Settles O10: the fold over `u ++ v` is the fold over `v` from where `u` leads, which `Fail` never leaves. -/
theorem deltaStarComposes : Obligations.DeltaStarComposes := by
  unfold Obligations.DeltaStarComposes
  refine ⟨deltaStar_nil, deltaStar_cons, deltaStar_append, deltaStar_fail, fun X u v hfail => ?_⟩
  rw [deltaStar_append, hfail, deltaStar_fail]

/-- Settles O11: the classes are counted range by range, and both packed rows tell exactly the classes apart. -/
theorem classViewIsComplete : Obligations.ClassViewIsComplete :=
  ⟨count_classOf .ascii, count_classOf .cont80, count_classOf .cont90, count_classOf .contA0, count_classOf .illegal,
    count_classOf .lead2, count_classOf .lead3Low, count_classOf .lead3, count_classOf .lead3High,
    count_classOf .lead4Low, count_classOf .lead4, count_classOf .lead4High, delta_eq_column, fun _ _ => classOf_eq_iff,
    length_dedup_of_classes fun _ _ => buildRow4_eq_iff, length_dedup_of_classes fun _ _ => buildRow6p_eq_iff⟩

/-- Settles O12: after the first byte at most three are owed, and each byte that follows lowers what is owed. -/
theorem sequencesCloseWithinFourBytes : Obligations.SequencesCloseWithinFourBytes := by
  unfold Obligations.SequencesCloseWithinFourBytes
  intro bytes hlen
  cases bytes with
  | nil => exact absurd hlen (by decide)
  | cons b w =>
    have howed := bytesOwed_le (delta .ok b)
    rw [List.length_cons] at hlen
    obtain ⟨k, hk, hnone⟩ := exists_take_owing_none (X := delta .ok b) (w := w) (by omega)
    exact ⟨k + 1, by omega, by omega, bytesOwed_eq_zero_iff.mp hnone⟩

/-! ### The byte words of each class -/

/-- Settles O13: row ASCII is the range of class ASCII. -/
theorem asciiWordKeepsOkOnly : Obligations.AsciiWordKeepsOkOnly := by
  unfold Obligations.AsciiWordKeepsOkOnly
  intro b hb
  exact ClassValues.word (c := .ascii) ⟨by decide, rfl, rfl, rfl⟩ hb rfl (Laws.RowRange.ascii b) rfl (by decide)

/-- Settles O14: row CONT80 is the range of class CONT80. -/
theorem cont80WordConsumesTailByte : Obligations.Cont80WordConsumesTailByte := by
  unfold Obligations.Cont80WordConsumesTailByte
  intro b hb
  exact ClassValues.word (c := .cont80) ⟨by decide, rfl, rfl, rfl⟩ hb rfl (Laws.RowRange.cont80 b) rfl (by decide)

/-- Settles O15: row CONT90 is the range of class CONT90. -/
theorem cont90WordConsumesTailByte : Obligations.Cont90WordConsumesTailByte := by
  unfold Obligations.Cont90WordConsumesTailByte
  intro b hb
  exact ClassValues.word (c := .cont90) ⟨by decide, rfl, rfl, rfl⟩ hb rfl (Laws.RowRange.cont90 b) rfl (by decide)

/-- Settles O16: row CONTA0 is the range of class CONTA0. -/
theorem contA0WordConsumesTailByte : Obligations.ContA0WordConsumesTailByte := by
  unfold Obligations.ContA0WordConsumesTailByte
  intro b hb
  exact ClassValues.word (c := .contA0) ⟨by decide, rfl, rfl, rfl⟩ hb rfl (Laws.RowRange.contA0 b) rfl (by decide)

/-- Settles O17: one row is the lower range of class ILLEGAL, and three rows lie in the upper. -/
theorem illegalWordExecutesToFail : Obligations.IllegalWordExecutesToFail := by
  unfold Obligations.IllegalWordExecutesToFail
  have hvalues : ClassValues .illegal (fun _ => .fail) 0 0 0 :=
    ⟨by decide, rfl, rfl, rfl⟩
  exact ⟨fun b hb => hvalues.word hb rfl (Laws.RowRange.illegalC0 b) rfl (by decide),
    hvalues.word (lo := 0xF5) (hi := 0xF5) rfl rfl Laws.RowRange.illegalF5 rfl (by decide),
    fun b hb => hvalues.word hb rfl (Laws.RowRange.illegalF6 b) rfl (by decide),
    fun b hb => hvalues.word hb rfl (Laws.RowRange.illegalF8 b) rfl (by decide)⟩

/-- Settles O18: the four rows lie in the range of class LEAD2. -/
theorem lead2WordEntersTail1 : Obligations.Lead2WordEntersTail1 := by
  unfold Obligations.Lead2WordEntersTail1
  have hvalues : ClassValues .lead2 (fun X => if X = .ok then .tail1 else .fail) 0x20 0x300 0x80 :=
    ⟨by decide, rfl, rfl, rfl⟩
  exact ⟨fun b hb => hvalues.word hb rfl (Laws.RowRange.lead2C2 b) rfl (by decide),
    fun b hb => hvalues.word hb rfl (Laws.RowRange.lead2C4 b) rfl (by decide),
    fun b hb => hvalues.word hb rfl (Laws.RowRange.lead2C8 b) rfl (by decide),
    fun b hb => hvalues.word hb rfl (Laws.RowRange.lead2D0 b) rfl (by decide)⟩

/-- Settles O19: row LEAD3LOW is the one byte of class LEAD3LOW. -/
theorem lead3LowWordEntersLead3Low : Obligations.Lead3LowWordEntersLead3Low := by
  unfold Obligations.Lead3LowWordEntersLead3Low
  exact ClassValues.word (c := .lead3Low) ⟨by decide, rfl, rfl, rfl⟩ (lo := 0xE0) (hi := 0xE0)
    rfl rfl Laws.RowRange.lead3Low rfl (by decide)

/-- Settles O20: five rows lie in the lower range of class LEAD3, and one row is the upper. -/
theorem lead3WordEntersTail2 : Obligations.Lead3WordEntersTail2 := by
  unfold Obligations.Lead3WordEntersTail2
  have hvalues : ClassValues .lead3 (fun X => if X = .ok then .tail2 else .fail) 0x30 0x480 0xC0 :=
    ⟨by decide, rfl, rfl, rfl⟩
  exact ⟨hvalues.word (lo := 0xE1) (hi := 0xE1) rfl rfl Laws.RowRange.lead3E1 rfl (by decide),
    fun b hb => hvalues.word hb rfl (Laws.RowRange.lead3E2 b) rfl (by decide),
    fun b hb => hvalues.word hb rfl (Laws.RowRange.lead3E4 b) rfl (by decide),
    fun b hb => hvalues.word hb rfl (Laws.RowRange.lead3E8 b) rfl (by decide),
    hvalues.word (lo := 0xEC) (hi := 0xEC) rfl rfl Laws.RowRange.lead3EC rfl (by decide),
    fun b hb => hvalues.word hb rfl (Laws.RowRange.lead3EE b) rfl (by decide)⟩

/-- Settles O21: row LEAD3HIGH is the one byte of class LEAD3HIGH. -/
theorem lead3HighWordEntersLead3High : Obligations.Lead3HighWordEntersLead3High := by
  unfold Obligations.Lead3HighWordEntersLead3High
  exact ClassValues.word (c := .lead3High) ⟨by decide, rfl, rfl, rfl⟩ (lo := 0xED) (hi := 0xED)
    rfl rfl Laws.RowRange.lead3High rfl (by decide)

/-- Settles O22: row LEAD4LOW is the one byte of class LEAD4LOW. -/
theorem lead4LowWordEntersLead4Low : Obligations.Lead4LowWordEntersLead4Low := by
  unfold Obligations.Lead4LowWordEntersLead4Low
  exact ClassValues.word (c := .lead4Low) ⟨by decide, rfl, rfl, rfl⟩ (lo := 0xF0) (hi := 0xF0)
    rfl rfl Laws.RowRange.lead4Low rfl (by decide)

/-- Settles O23: both rows lie in the range of class LEAD4. -/
theorem lead4WordEntersTail3 : Obligations.Lead4WordEntersTail3 := by
  unfold Obligations.Lead4WordEntersTail3
  have hvalues : ClassValues .lead4 (fun X => if X = .ok then .tail3 else .fail) 0x40 0x600 0x100 :=
    ⟨by decide, rfl, rfl, rfl⟩
  exact ⟨hvalues.word (lo := 0xF1) (hi := 0xF1) rfl rfl Laws.RowRange.lead4F1 rfl (by decide),
    fun b hb => hvalues.word hb rfl (Laws.RowRange.lead4F2 b) rfl (by decide)⟩

/-- Settles O24: row LEAD4HIGH is the one byte of class LEAD4HIGH. -/
theorem lead4HighWordEntersLead4High : Obligations.Lead4HighWordEntersLead4High := by
  unfold Obligations.Lead4HighWordEntersLead4High
  exact ClassValues.word (c := .lead4High) ⟨by decide, rfl, rfl, rfl⟩ (lo := 0xF4) (hi := 0xF4)
    rfl rfl Laws.RowRange.lead4High rfl (by decide)

end Sys2Proof.Machine
end

section
/-! SUPPORT. What BUILD writes: a packed row is the sum of its fields, each in the place of its state (R150, R153, R154), and
shift and mask read a field back (R156). -/

namespace Sys2Proof.Machine

/-! ### A packed row as a number (R150) -/

/-- A field put above everything that a row holds so far is added to it. -/
theorem packField_toNat {w k : Nat} {field : DState → Row} {acc : Row} {X : DState} (hcode : (code X).toNat = k)
    (hacc : acc.toNat < 2 ^ (w * k)) (hfield : (field X).toNat < 2 ^ w) (hfits : w * (k + 1) ≤ 64) :
    (packField w field acc X).toNat = acc.toNat + (field X).toNat * 2 ^ (w * k) ∧
      (packField w field acc X).toNat < 2 ^ (w * (k + 1)) := by
  have hshift : (field X).toNat <<< (w * k) < 2 ^ (w * (k + 1)) := by
    rw [Nat.mul_succ, Nat.add_comm]
    exact Nat.shiftLeft_lt hfield
  have hnowrap : (field X).toNat <<< (w * k) % 2 ^ 64 = (field X).toNat <<< (w * k) :=
    Nat.mod_eq_of_lt (hshift.trans_le (Nat.pow_le_pow_right (by decide) hfits))
  have hor : (packField w field acc X).toNat = acc.toNat ||| (field X).toNat <<< (w * k) := by
    rw [packField, BitVec.toNat_or, BitVec.toNat_shiftLeft, hcode, hnowrap]
  constructor
  · rw [hor, Nat.or_comm, ← Nat.shiftLeft_add_eq_or_of_lt hacc, Nat.shiftLeft_eq, Nat.add_comm]
  · have hwider : 2 ^ (w * k) ≤ 2 ^ (w * (k + 1)) :=
      Nat.pow_le_pow_right (by decide) (Nat.mul_le_mul_left w (Nat.le_succ k))
    rw [hor]
    exact Nat.or_lt_two_pow (hacc.trans_le hwider) hshift

/-- States whose codes follow one another from `k` fill the fields of a row from its field `k` on. -/
theorem foldl_packField_toNat {w : Nat} {field : DState → Row} (hfield : ∀ X, (field X).toNat < 2 ^ w) {l : List DState}
    {k : Nat} {acc : Row} (hcodes : l.map (fun X => (code X).toNat) = List.range' k l.length)
    (hacc : acc.toNat < 2 ^ (w * k)) (hfits : w * (k + l.length) ≤ 64) :
    (l.foldl (packField w field) acc).toNat =
        acc.toNat + (l.map fun X => (field X).toNat * 2 ^ (w * (code X).toNat)).sum ∧
      (l.foldl (packField w field) acc).toNat < 2 ^ (w * (k + l.length)) := by
  induction l generalizing k acc with
  | nil => exact ⟨rfl, hacc⟩
  | cons X l ih =>
    rw [List.length_cons, Nat.add_comm l.length, ← Nat.add_assoc] at hfits ⊢
    rw [List.length_cons, List.map_cons, List.range'_succ, List.cons.injEq] at hcodes
    obtain ⟨hcode, hcodes⟩ := hcodes
    obtain ⟨hsum, hlt⟩ := packField_toNat hcode hacc (hfield X)
      ((Nat.mul_le_mul_left w (Nat.le_add_right _ _)).trans hfits)
    obtain ⟨hsums, hbound⟩ := ih hcodes hlt hfits
    rw [List.foldl_cons, List.map_cons, List.sum_cons, hcode, ← Nat.add_assoc, ← hsum]
    exact ⟨hsums, hbound⟩

/-- A row of nine fields that fit is their sum, each in the place of its state, and has no bit above them. -/
theorem packRow_toNat {w : Nat} {field : DState → Row} (hfits : w * 9 ≤ 64) (hfield : ∀ X, (field X).toNat < 2 ^ w) :
    (packRow w field).toNat = (allStates.map fun X => (field X).toNat * 2 ^ (w * (code X).toNat)).sum ∧
      (packRow w field).toNat < 2 ^ (w * 9) := by
  obtain ⟨hsum, hlt⟩ := foldl_packField_toNat (l := allStates) (k := 0) (acc := 0) hfield rfl (by simp) hfits
  exact ⟨hsum.trans (Nat.zero_add _), hlt⟩

/-! ### The rows that BUILD writes (R86 to R88, R153, R154) -/

@[simp] theorem zext64_toNat (c : Code) : (zext64 c).toNat = c.toNat :=
  BitVec.toNat_setWidth_of_le (by decide)

/-- A state's code fits a field of four bits or more. -/
theorem zext64_lt {w : Nat} (hw : 4 ≤ w) (c : Code) : (zext64 c).toNat < 2 ^ w := by
  rw [zext64_toNat]
  exact c.isLt.trans_le (Nat.pow_le_pow_right (by decide) hw)

@[simp] theorem premul_code_toNat (X : DState) : (6 * zext64 (code X)).toNat = 6 * (code X).toNat := by
  cases X <;> rfl

theorem buildRow4_toNat (b : Byte) : (buildRow4 b).toNat < 2 ^ 36 ∧
    (buildRow4 b).toNat = (allStates.map fun X => (code (delta X b)).toNat * 2 ^ (4 * (code X).toNat)).sum := by
  obtain ⟨hsum, hlt⟩ := packRow_toNat (by decide) fun X => zext64_lt (w := 4) (by decide) (denseEntry X b)
  simp only [zext64_toNat] at hsum
  exact ⟨hlt, hsum⟩

theorem buildRow6p_toNat (b : Byte) : (buildRow6p b).toNat < 2 ^ 54 ∧
    (buildRow6p b).toNat = (allStates.map fun X => 6 * (code (delta X b)).toNat * 2 ^ (6 * (code X).toNat)).sum := by
  obtain ⟨hsum, hlt⟩ := packRow_toNat (by decide) fun X => Safety.premulLoad_code_lt (delta X b)
  simp only [premulLoad, premul_code_toNat] at hsum
  exact ⟨hlt, hsum⟩

theorem buildRow6n_toNat (b : Byte) :
    (buildRow6n b).toNat = (allStates.map fun X => (code (delta X b)).toNat * 2 ^ (6 * (code X).toNat)).sum := by
  obtain ⟨hsum, -⟩ := packRow_toNat (by decide) fun X => zext64_lt (w := 6) (by decide) (denseEntry X b)
  simp only [zext64_toNat] at hsum
  exact hsum

/-- Field by field, a row of `ROW6P` is six times the reference row, with no carry between the fields (R154). -/
theorem buildRow6p_eq_six_mul (b : Byte) : (buildRow6p b).toNat = 6 * (buildRow6n b).toNat := by
  obtain ⟨-, hsum⟩ := buildRow6p_toNat b
  rw [hsum, buildRow6n_toNat, ← List.sum_map_mul_left]
  simp only [Nat.mul_assoc]

/-! ### Reading a field back (R156) -/

theorem row4_field (X : DState) (b : Byte) :
    ((buildRow4 b >>> (4 * (code X).toNat)) &&& 15).setWidth 4 = code (delta X b) := by
  rw [Nat.mul_comm]
  exact plainStep4_built X b

theorem row6p_field (X : DState) (b : Byte) :
    (((buildRow6p b >>> (6 * (code X).toNat)) &&& 63) / 6).setWidth 4 = code (delta X b) := by
  rw [Nat.mul_comm, ← shiftAmount_toNat _ X (shiftAmount_load X)]
  exact premulDecode_of_carries _ _ (premulStep_built X b _ (shiftAmount_load X))

end Sys2Proof.Machine
end

section
/-! SUPPORT. Which command makes which change to the state: the kinds of commands (R83), and what each can do when it answers
a next state (R150, R201, R202, R224, R227). -/

namespace Sys2Proof.Machine

open Sys2Proof.Safety

/-! ### The kinds of commands (R83) -/

theorem encode_of_format_cmd {i : Instr} (h : i.format = .cmd) : ∃ w, encode i = .cmd w := by
  rw [← encode_format] at h
  cases hw : encode i with
  | byte b =>
    rw [hw] at h
    cases h
  | cmd w => exact ⟨w, rfl⟩

theorem validateInstr_inj {v w : Variant} : validateInstr v = validateInstr w ↔ v = w := by
  cases v
  all_goals
    cases w
    all_goals decide

theorem validateInstr_ne_build (v : Variant) : validateInstr v ≠ .build := by
  cases v <;> decide

theorem validateInstr_ne_nop (v : Variant) : validateInstr v ≠ .nop := by
  cases v <;> decide

/-- A command word is one of the four kinds of R83. -/
theorem cmd_kinds {i : Instr} (h : i.format = .cmd) :
    i = .nop ∨ i = .build ∨ (∃ v, i = validateInstr v) ∨
      (i ≠ .nop ∧ i ≠ .build ∧ ∀ s, exec i s = reservedWord s) := by
  obtain ⟨w, hw⟩ := encode_of_format_cmd h
  obtain hi | hi | (hi | hi | hi | hi | hi) | ⟨hnop, hbuild, -, -, -, -, -, hexec⟩ := cmd_cases hw
  · exact .inl hi
  · exact .inr (.inl hi)
  · exact .inr (.inr (.inl ⟨.ds, hi⟩))
  · exact .inr (.inr (.inl ⟨.db, hi⟩))
  · exact .inr (.inr (.inl ⟨.p4, hi⟩))
  · exact .inr (.inr (.inl ⟨.p6, hi⟩))
  · exact .inr (.inr (.inl ⟨.p6u, hi⟩))
  · exact .inr (.inr (.inr ⟨hnop, hbuild, hexec⟩))

/-! ### What each of them can do -/

/-- NOP does nothing, ignored or not (R201, R227). -/
theorem exec_nop (s : State) : exec .nop s = .next s := by
  by_cases herr : s.inst.err = .none
  · exact command_runs (fun st => .next st) s herr
  · exact command_ignored _ s herr

/-- A BUILD with no fault recorded and unbuilt tables builds them (R150). -/
theorem exec_build_installs {s : State} (herr : s.inst.err = .none) (hready : s.tblReady = false) :
    exec .build s = .next s.installTables := by
  rw [exec_build, if_pos ⟨herr, hready⟩]

/-- Everything a VALIDATE can do to the state when it answers a next state. -/
theorem exec_validateInstr_cases {v : Variant} {s t : State} (h : exec (validateInstr v) s = .next t) :
    t = s ∨ (∃ e, t = s.raise e) ∨ ∃ slice, t = s.beginRun v slice := by
  rw [exec_validateInstr] at h
  by_cases herr : s.inst.err = .none
  · rw [command_runs _ _ herr] at h
    obtain ⟨-, ht⟩ | ⟨-, -, ht⟩ | ⟨-, -, slice, -, -, ht⟩ := prologue_cases h
    · exact .inr (.inl ⟨_, ht⟩)
    · exact .inr (.inl ⟨_, ht⟩)
    · exact .inr (.inr ⟨slice, ht⟩)
  · rw [command_ignored _ _ herr] at h
    cases h
    exact .inl rfl

/-- Which command makes which change: only BUILD installs the tables, NOP and BUILD raise no fault, and only a VALIDATE begins
a run, one of its own variant. -/
theorem exec_cmd_changes {i : Instr} {s t : State} (hformat : i.format = .cmd) (hexec : exec i s = .next t) :
    t = s ∨ (i = .build ∧ t = s.installTables) ∨ (i ≠ .nop ∧ i ≠ .build ∧ ∃ e, t = s.raise e) ∨
      ∃ v slice, i = validateInstr v ∧ t = s.beginRun v slice := by
  obtain rfl | rfl | ⟨v, rfl⟩ | ⟨hnop, hbuild, hreserved⟩ := cmd_kinds hformat
  · rw [exec_nop] at hexec
    cases hexec
    exact .inl rfl
  · rw [exec_build] at hexec
    split at hexec
    · cases hexec
      exact .inr (.inl ⟨rfl, rfl⟩)
    · cases hexec
      exact .inl rfl
  · obtain ht | ht | ⟨slice, ht⟩ := exec_validateInstr_cases hexec
    · exact .inl ht
    · exact .inr (.inr (.inl ⟨validateInstr_ne_nop v, validateInstr_ne_build v, ht⟩))
    · exact .inr (.inr (.inr ⟨v, slice, rfl, ht⟩))
  · rw [hreserved, reservedWord_eq] at hexec
    split at hexec
    · cases hexec
      exact .inr (.inr (.inl ⟨hnop, hbuild, _, rfl⟩))
    · cases hexec
      exact .inl rfl

/-- A run begins with only the register loaded that its variant carries (R202). -/
theorem State.beginRun_off_of_raw {v : Variant} (hv : v.rawState = true) (s : State) (slice : List Byte) :
    (s.beginRun v slice).inst.off = s.inst.off := by
  rw [State.beginRun_raw s v slice hv]

theorem State.beginRun_s_of_premul {v : Variant} (hv : v.rawState = false) (s : State) (slice : List Byte) :
    (s.beginRun v slice).inst.s = s.inst.s := by
  rw [State.beginRun_premul s v slice hv]

end Sys2Proof.Machine
end

section
/-! SUPPORT. The statements about the Table Builder and about what a command leaves unchanged. -/

namespace Sys2Proof.Machine

/-- Settles O27: the word is that of BUILD, whose answer is one of two states, and the installed tables hold the entries and
the rows, each row the sum of its fields. -/
theorem buildWritesEveryTableOnce : Obligations.BuildWritesEveryTableOnce := by
  unfold Obligations.BuildWritesEveryTableOnce
  refine ⟨Laws.decode_encode (i := .build) rfl, fun s herr => ?_, fun s hready => ?_, fun s herr hready => ?_⟩
  · simp [exec_build, herr]
  · simp [exec_build, hready]
  · refine ⟨Tables.built, exec_build_installs herr hready, readSb_built, fun X b => readBs_built X b, fun b => ?_,
      fun b => ?_⟩
    · exact ⟨buildRow4 b, readRow4_built b, buildRow4_toNat b⟩
    · obtain ⟨hlt, hsum⟩ := buildRow6p_toNat b
      exact ⟨buildRow6p b, readRow6p_built b, hlt, hsum, buildRow6p_eq_six_mul b⟩

/-- Settles O28: each of the four reads of the built tables gives the code of the next state, which decodes to it. -/
theorem physicalEncodingsAgreeAfterBuild : Obligations.PhysicalEncodingsAgreeAfterBuild := by
  unfold Obligations.PhysicalEncodingsAgreeAfterBuild
  intro s herr hready
  refine ⟨s.installTables, exec_build_installs herr hready, fun X b => ?_⟩
  rw [State.installTables_tables, readSb_built, readBs_built, readRow4_built, readRow6p_built]
  simp only [Option.bind_some, row4_field, row6p_field, stateOf_code, and_self]

/-- Settles O36: a command does nothing, installs the tables, raises a fault or begins a run, and each of the four changes
stays inside the part that the command may write. -/
theorem commandFrame : Obligations.CommandFrame := by
  unfold Obligations.CommandFrame
  intro i s t hformat hexec
  obtain rfl | ⟨rfl, rfl⟩ | ⟨hnop, hbuild, e, rfl⟩ | ⟨v, slice, rfl, rfl⟩ := exec_cmd_changes hformat hexec
  · simp
  · simp
  · simp [hnop, hbuild]
  · simp +contextual [validateInstr_ne_build, validateInstr_ne_nop, validateInstr_inj, State.beginRun_off_of_raw,
      State.beginRun_s_of_premul]

end Sys2Proof.Machine
end

section
/-! SUPPORT. The rule that the five VALIDATE commands follow, from the command word to the end of the run, and the end of a run
that is already in progress (R170 to R173, R202, R203, R209). -/

namespace Sys2Proof.Safety

open Sys2Proof.Machine

/-! ### From the command word (R202, R222, R223) -/

theorem prologue_notReady {v : Variant} {s : State} (hready : s.tblReady = false) :
    prologue v s = .next (s.raise .tablesNotBuilt) := by
  simp [prologue, hready]

theorem prologue_illegalInit {v : Variant} {s : State} (hready : s.tblReady = true) (hinit : 8 < s.inst.init.toNat) :
    prologue v s = .next (s.raise .illegalInitialState) := by
  simp [prologue, hready, hinit]

/-- Each variant follows the rule under its own command word: its prologue is ignored, raises one of the two faults or begins
the run, and that run goes on to its end. -/
theorem followsValidateRule (v : Variant) : FollowsValidateRule v v.cmdWord := by
  refine ⟨Laws.encode_of_decodeCmd (decodeCmd_cmdWord v), fun s herr => ?_, fun s herr hready => ?_,
    fun s herr hready hinit => ?_, fun s X bytes h => ⟨_, exec_validateInstr_begins h, fun hraw => ?_, fun hpremul => ?_,
      fun hturns => stepN_beginRun h.built hturns h.init⟩⟩
  · rw [exec_validateInstr, command_ignored _ _ herr]
  · rw [exec_validateInstr, command_runs _ _ herr, prologue_notReady hready, State.raise]
  · rw [exec_validateInstr, command_runs _ _ herr, prologue_illegalInit hready hinit, State.raise]
  · rw [State.beginRun_raw _ _ _ hraw, h.init]
  · rw [State.beginRun_premul _ _ _ hpremul, h.init, premulLoad]

/-! ### From inside a run (R203, R209) -/

/-- In a block that meets the invariant, the acting one of the instances is inside the run `r`, begun in `X`, and keeps its
turn. -/
structure InRun (r : Run) (X : DState) (s : State) : Prop where
  inv : Inv s
  noTurn : s.turns = []
  run : s.inst.run = some r
  init : s.inst.init = code X

section
variable {r : Run} {X : DState} {s : State}

theorem InRun.idx_le (h : InRun r X s) : s.inst.idx ≤ r.slice.length := by
  obtain ⟨-, -, -, -, -, hslice, hidx, -⟩ := (instInv_iff_of_run h.run).mp (inv_acting h.inv)
  exact (length_of_snapshot hslice).symm ▸ hidx

/-- The register is at the state that the bytes before `IDX` lead to, from the state whose code `INIT` holds (R35). -/
theorem InRun.carries (h : InRun r X s) : Carries r.variant s.inst (deltaStar X (r.slice.take s.inst.idx)) := by
  obtain ⟨-, -, -, -, -, -, -, Y, hY, hcar, -⟩ := (instInv_iff_of_run h.run).mp (inv_acting h.inv)
  have hXY : X = Y := code_injective _ _ (h.init.symm.trans hY)
  rwa [hXY]

/-- While a byte is left a step consumes one and stays inside the run. -/
theorem InRun.step_byte (h : InRun r X s) (hleft : s.inst.idx < r.slice.length) :
    ∃ t, step s = .next t ∧ InRun r X t ∧ t.inst.idx = s.inst.idx + 1 := by
  have hb := List.getElem?_eq_getElem hleft
  obtain ⟨t, hbyte, -, hidx⟩ :=
    byteStep_applies_delta r.slice[s.inst.idx] (tables_built_of_run h.inv h.run) h.run h.carries
  have hinv : Inv t := inv_byteStep h.inv h.run hb hbyte
  refine ⟨t, by rw [step_of_takeTurn (takeTurn_nil h.noTurn), perform_fetch_byte h.run hb, hbyte], ?_, hidx⟩
  obtain ⟨-, -, ⟨-, n, rfl⟩ | ⟨-, o, rfl⟩⟩ := byteStep_cases hbyte
  all_goals exact ⟨hinv, h.noTurn, h.run, h.init⟩

/-- At the end of the slice a step is the epilogue, with the final state's code in `RESULT`. -/
theorem InRun.step_end (h : InRun r X s) (hend : s.inst.idx = r.slice.length) :
    step s = .next (s.finishRun r.variant) ∧ (s.finishRun r.variant).inst.result = code (deltaStar X r.slice) := by
  constructor
  · rw [step_of_takeTurn (takeTurn_nil h.noTurn), perform_fetch_end h.run hend.ge]
  · rw [State.finishRun_result, finalCode_of_carries h.carries, hend, List.take_length]

/-- By induction on the number of bytes left: each takes one step, and the epilogue one more. -/
theorem InRun.completes {n : Nat} (h : InRun r X s) (hn : s.inst.idx + n = r.slice.length) :
    ∃ t, stepN (n + 1) s = .next t ∧ t.inst.run = none ∧ t.inst.done = true ∧ t.inst.idx = r.slice.length ∧
      t.inst.result = code (deltaStar X r.slice) := by
  induction n generalizing s with
  | zero =>
    obtain ⟨hstep, hresult⟩ := h.step_end hn
    exact ⟨_, stepN_succ_of_next 0 hstep, rfl, rfl, hn, hresult⟩
  | succ n ih =>
    obtain ⟨t, hstep, ht, hidx⟩ := h.step_byte (by omega)
    rw [stepN_succ_of_next (n + 1) hstep]
    exact ih ht (by omega)

end

end Sys2Proof.Safety

namespace Sys2Proof.Machine

open Sys2Proof.Safety

/-- Settles O37: the rule of the five VALIDATE commands, for the variant that reads `DENSE_SB`. -/
theorem validateDsRunsToFinalState : Obligations.ValidateDsRunsToFinalState :=
  followsValidateRule .ds

/-- Settles O38: the rule of the five VALIDATE commands, for the variant that reads `DENSE_BS`. -/
theorem validateDbRunsToFinalState : Obligations.ValidateDbRunsToFinalState :=
  followsValidateRule .db

/-- Settles O56: the invariant bounds `IDX` by `LEN`, and the run completes over the bytes from there on. -/
theorem runInProgressCompletes : Obligations.RunInProgressCompletes := by
  unfold Obligations.RunInProgressCompletes
  intro s r X hinv hturns hrun hX
  have h : InRun r X s := ⟨hinv, hturns, hrun, hX⟩
  exact h.completes (Nat.add_sub_of_le h.idx_le)

end Sys2Proof.Machine
end

section
/-! SUPPORT. The statements about the packed variants: the plain and the pre-multiplied form of a row (R191), and the runs of
VALIDATE.P4, VALIDATE.P6 and VALIDATE.P6U (R181, R183, R184). -/

namespace Sys2Proof.Machine

open Sys2Proof.Safety

/-- Settles O29: the rows differ by the factor six, and each form's step reads the field of the next state in its own form. -/
theorem plainAndPremultipliedFormsAgree : Obligations.PlainAndPremultipliedFormsAgree := by
  unfold Obligations.PlainAndPremultipliedFormsAgree
  intro X b
  have hplain := plainStep6_built X b
  have hpremul := premulStep_built X b (premulLoad (code X)) (shiftAmount_load X)
  refine ⟨buildRow6p_eq_six_mul b, hplain, ?_⟩
  rw [hplain]
  exact hpremul

/-- Settles O39: the rule of the five VALIDATE commands, for the variant that reads `ROW4`. -/
theorem validateP4RunsToFinalState : Obligations.ValidateP4RunsToFinalState :=
  followsValidateRule .p4

/-- Settles O40: the rule of the five VALIDATE commands, for the variant that shifts the rows of `ROW6P`. -/
theorem validateP6RunsToFinalState : Obligations.ValidateP6RunsToFinalState :=
  followsValidateRule .p6

/-- The loop test of every variant, the unrolled one included, asks whether a byte is left (R184, R209). -/
theorem bytesRemain_iff {v : Variant} {idx len : Nat} : bytesRemain v idx len = true ↔ idx < len := by
  rw [bytesRemain_eq, decide_eq_true_iff]

/-- Settles O41: the rule of the five VALIDATE commands, for the unrolled variant, whose loop tests ask only whether a byte is
left, as one is at each place of a group of eight. -/
theorem validateP6uRunsToFinalState : Obligations.ValidateP6uRunsToFinalState := by
  unfold Obligations.ValidateP6uRunsToFinalState
  refine ⟨followsValidateRule .p6u, fun _ _ => bytesRemain_iff, fun idx len _ hgroup k hk => ?_⟩
  exact bytesRemain_iff.mpr (by omega)

end Sys2Proof.Machine
end

section
/-! SUPPORT. What a host reaches by the moves of a VALIDATE, and by the moves that a boot makes before them and a chunked
validation between them: RESET and BUILD, and `INIT <- RESULT` (R92, R93, R205, R250, R251). -/

namespace Sys2Proof.Safety

open Sys2Proof.Machine

/-! ### The end of a run (R203) -/

section
variable {s : State} {v : Variant} {X : DState} {bytes : List Byte}

@[simp] theorem afterRun_params : (afterRun v X bytes s).params = s.params := by
  cases v <;> rfl

@[simp] theorem afterRun_tables : (afterRun v X bytes s).tables = s.tables := by
  cases v <;> rfl

@[simp] theorem afterRun_tblReady : (afterRun v X bytes s).tblReady = s.tblReady := by
  cases v <;> rfl

@[simp] theorem afterRun_init : (afterRun v X bytes s).inst.init = s.inst.init := by
  cases v <;> rfl

@[simp] theorem afterRun_initSet : (afterRun v X bytes s).inst.initSet = s.inst.initSet := by
  cases v <;> rfl

@[simp] theorem afterRun_lenSet : (afterRun v X bytes s).inst.lenSet = s.inst.lenSet := by
  cases v <;> rfl

@[simp] theorem afterRun_err : (afterRun v X bytes s).inst.err = s.inst.err := by
  cases v <;> rfl

end

/-- What a host finds in `t` when the moves of a VALIDATE are done in a block with the parameters `p`: it is ready for the next
command, the operands are written, `RESULT` holds the final state's code, and the moves `rest` are still to make. -/
structure RunEnded (X : DState) (bytes : List Byte) (rest : List HostMove) (p : Params) (t : State) : Prop where
  idle : Idle t
  params : t.params = p
  init : t.inst.init = code X
  initSet : t.inst.initSet = true
  lenSet : t.inst.lenSet = true
  result : t.inst.result = code (deltaStar X bytes)
  done : t.inst.done = true
  moves : t.inst.moves = rest

theorem runEnded_of_validateMoves {s : State} {X : DState} {bytes : List Byte} {v : Variant} {rest : List HostMove}
    (h : Idle s) (hfits : Config.lenFits s.params bytes.length = true)
    (hmoves : s.inst.moves = validateMoves v X bytes ++ rest) :
    ∃ t, stepN (4 + (bytes.length + 1)) s = .next t ∧ RunEnded X bytes rest s.params t := by
  refine ⟨_, stepN_validateMoves h hfits hmoves, ?_⟩
  obtain ⟨herr, hready, hbuilt, -, hturns⟩ := h
  exact {
    idle := ⟨afterRun_err.trans herr, afterRun_tblReady.trans hready, afterRun_tables.trans hbuilt, afterRun_run,
      afterRun_turns.trans hturns⟩
    params := afterRun_params
    init := afterRun_init
    initSet := afterRun_initSet
    lenSet := afterRun_lenSet
    result := afterRun_result
    done := afterRun_done
    moves := afterRun_moves }

/-! ### RESET and BUILD (R150, R155, R250) -/

section
variable {s : State} {ms : List HostMove}

theorem step_reset (hturns : s.turns = []) (hrun : s.inst.run = none) (hmoves : s.inst.moves = .reset :: ms)
    (hothers : ∀ i ∈ s.parked, i.run = none) : step s = .next (s.setMoves ms).resetAll :=
  (step_move hturns hrun hmoves).trans (doReset_of_noOtherRun (s := s.setMoves ms) hothers)

theorem eq_resetAll_of_step_reset {t : State} (hturns : s.turns = []) (hrun : s.inst.run = none)
    (hmoves : s.inst.moves = .reset :: ms) (h : step s = .next t) : t = (s.setMoves ms).resetAll := by
  have hdo : doReset (s.setMoves ms) = .next t := (step_move hturns hrun hmoves).symm.trans h
  obtain ⟨-, hgo⟩ | ⟨-, hstop⟩ := doReset_cases (s.setMoves ms)
  · exact Host.Outcome.next.inj (hdo.symm.trans hgo)
  · cases hstop.symm.trans hdo

/-- Where `TBL_READY` is 1 over built tables only, a BUILD ends with the tables installed: it writes them or finds them built. -/
theorem exec_build_of_flag (herr : s.inst.err = .none) (hflag : s.tblReady = true → s.tables = Tables.built) :
    exec .build s = .next s.installTables := by
  cases hready : s.tblReady with
  | false => exact exec_build_installs herr hready
  | true =>
    have hsame : s.installTables = s := by
      rw [State.installTables, ← hflag hready, ← hready]
    rw [exec_build, hsame]
    simp [hready]

theorem step_build (hturns : s.turns = []) (hrun : s.inst.run = none)
    (hmoves : s.inst.moves = .writeCmd 0b01000 :: ms) (herr : s.inst.err = .none)
    (hflag : s.tblReady = true → s.tables = Tables.built) : step s = .next (s.setMoves ms).installTables := by
  have hword : decodeCmd 0b01000 = some .build := rfl
  rw [step_move hturns hrun hmoves, hostMove, perform_ofDecoded hword]
  exact exec_build_of_flag (s := s.setMoves ms) herr hflag

theorem resetAll_flag (h : s.resetAll.tblReady = true) : s.resetAll.tables = Tables.built := by
  rw [State.resetAll_tblReady] at h
  simp [Tables.afterReset, h]

/-- RESET and BUILD leave the block ready for a command, whatever fault was recorded before, with `AUTO_BUILD` or without. -/
theorem stepN_boot (hturns : s.turns = []) (hrun : s.inst.run = none) (hothers : ∀ i ∈ s.parked, i.run = none)
    (hmoves : s.inst.moves = [.reset] ++ buildMoves ++ ms) :
    ∃ t, stepN 2 s = .next t ∧ Idle t ∧ t.params = s.params ∧ t.inst.moves = ms := by
  have hreset := step_reset hturns hrun hmoves hothers
  have hbuild := step_build (s := (s.setMoves (buildMoves ++ ms)).resetAll) hturns rfl rfl rfl resetAll_flag
  exact ⟨_, (stepN_succ_of_next 1 hreset).trans (stepN_succ_of_next 0 hbuild), ⟨rfl, rfl, rfl, rfl, hturns⟩, rfl, rfl⟩

end

/-! ### A run on the next chunk (R93, R205) -/

section
variable {s : State} {X : DState} {bytes : List Byte} {v : Variant} {ms rest : List HostMove}

theorem stepN_succ_congr {t : State} (k : Nat) (h : step s = step t) : stepN (k + 1) s = stepN (k + 1) t := by
  simp only [stepN, h]

/-- `INIT <- RESULT` is the write of `INIT` that a host makes once it has read the state's code from `RESULT`. -/
theorem step_carryResult (hturns : s.turns = []) (hrun : s.inst.run = none)
    (hmoves : s.inst.moves = .carryResult :: ms) (hdone : s.inst.done = true) (hX : s.inst.result = code X) :
    step s = step ((s.setReadOut .result (code X).toNat).setMoves (.writeInit (code X) :: ms)) := by
  have hcarry : step s = .next (((s.setMoves ms).setReadOut .result (code X).toNat).setInit (code X)) := by
    rw [← hX]
    exact (step_move hturns hrun hmoves).trans (hostCarry_done (s := s.setMoves ms) hdone)
  have hwrite := step_writeInit (s := (s.setReadOut .result (code X).toNat).setMoves (.writeInit (code X) :: ms))
    hturns hrun rfl
  exact hcarry.trans hwrite.symm

/-- The moves of the next chunk are those of a VALIDATE from the state in which the last run ended. -/
theorem runEnded_of_carryMoves (h : Idle s) (hdone : s.inst.done = true) (hX : s.inst.result = code X)
    (hfits : Config.lenFits s.params bytes.length = true)
    (hmoves : s.inst.moves = [.carryResult, .writeLen bytes.length, .supply bytes, .writeCmd v.cmdWord] ++ rest) :
    ∃ t, stepN (4 + (bytes.length + 1)) s = .next t ∧ RunEnded X bytes rest s.params t := by
  obtain ⟨herr, hready, hbuilt, hrun, hturns⟩ := h
  have hidle : Idle ((s.setReadOut .result (code X).toNat).setMoves (validateMoves v X bytes ++ rest)) :=
    ⟨herr, hready, hbuilt, hrun, hturns⟩
  obtain ⟨t, hsteps, hend⟩ := runEnded_of_validateMoves hidle hfits rfl
  have hsame := step_carryResult hturns hrun hmoves hdone hX
  exact ⟨t, (stepN_succ_congr _ hsame).trans hsteps, hend⟩

end

end Sys2Proof.Safety
end

section
/-! SUPPORT. The acting one of the instances and the others (R206, R233): what is done in a turn writes none of the others, and
depends on none of them, except for a RESET. -/

namespace Sys2Proof.Machine

open Sys2Proof.Safety

/-! ### Writing none of the others -/

section
variable {s t : State}

/-- A command writes the acting one of the instances alone. -/
theorem exec_cmd_keeps_others {i : Instr} {w : CmdWord} (hw : encode i = .cmd w) (hexec : exec i s = .next t) :
    t.parked = s.parked ∧ t.inst.id = s.inst.id := by
  obtain rfl | ⟨-, rfl⟩ | ⟨e, -, rfl⟩ | ⟨-, -, v, X, slice, -, -, rfl⟩ := exec_cmd_cases hw hexec
  · exact ⟨rfl, rfl⟩
  · exact ⟨rfl, rfl⟩
  · exact ⟨rfl, rfl⟩
  · exact ⟨s.beginRun_parked v slice, s.beginRun_id v slice⟩

/-- So does every move of the acting host but a RESET. -/
theorem hostMove_keeps_others {m : HostMove} (hmove : perform (hostMove m s) = .next t) :
    (t.parked = s.parked ∧ t.inst.id = s.inst.id) ∨ m = .reset := by
  obtain ⟨w, i, -, hi, hexec⟩ | ⟨hm, -, -⟩ | ⟨c, -, rfl⟩ | ⟨n, -, -, rfl⟩ | ⟨bytes, -, rfl⟩ | ⟨k, b, -, rfl⟩ |
    ⟨r, q, v, -, rfl⟩ | ⟨-, -, rfl⟩ := hostMove_cases hmove
  · exact .inl (exec_cmd_keeps_others (Laws.encode_of_decodeCmd hi) hexec)
  · exact .inr hm
  all_goals exact .inl ⟨rfl, rfl⟩

/-- So does whatever is done in a turn, but for a RESET that the host asserts between commands. -/
theorem perform_fetch_keeps_others (hnext : perform (fetch s) = .next t) :
    (t.parked = s.parked ∧ t.inst.id = s.inst.id) ∨ (s.inst.run = none ∧ s.inst.moves.head? = some .reset) := by
  obtain ⟨r, b, -, -, hbyte⟩ | ⟨r, -, -, rfl⟩ | ⟨-, -, rfl⟩ | ⟨m, ms, hrun, hmoves, hmove⟩ := perform_fetch_cases hnext
  · obtain ⟨-, -, ⟨-, n, rfl⟩ | ⟨-, o, rfl⟩⟩ := byteStep_cases hbyte
    all_goals exact .inl ⟨rfl, rfl⟩
  · exact .inl ⟨rfl, rfl⟩
  · exact .inl ⟨rfl, rfl⟩
  · obtain hkeeps | rfl := hostMove_keeps_others (s := s.setMoves ms) hmove
    · exact .inl hkeeps
    · exact .inr ⟨hrun, by rw [hmoves]; rfl⟩

end

/-! ### Depending on none of the others -/

/-- The same block with the list `others` in place of the instances that do not act. -/
def State.withOthers (others : List Inst) (s : State) : State := { s with parked := others }

@[simp] theorem State.withOthers_inst (others : List Inst) (s : State) : (s.withOthers others).inst = s.inst := rfl

@[simp] theorem State.withOthers_tables (others : List Inst) (s : State) : (s.withOthers others).tables = s.tables := rfl

/-- An answer with its next state changed by `f`; a fault or a refusal stays. -/
def mapNext (f : State → State) : Answer → Answer
  | .next t => .next (f t)
  | .fault e => .fault e
  | .refused e => .refused e

/-- An operation that does the same beside whatever others: to exchange them first is to exchange them afterwards. -/
def IgnoresOthers (op : State → Answer) : Prop :=
  ∀ others s, op (s.withOthers others) = mapNext (State.withOthers others) (op s)

/-- An operation that goes through from every state, with a change that commutes with the exchange, ignores the others. -/
theorem ignoresOthers_next {f : State → State} (h : ∀ others s, f (s.withOthers others) = (f s).withOthers others) :
    IgnoresOthers fun s => .next (f s) :=
  fun others s => congrArg Host.Outcome.next (h others s)

/-- So does one that is always refused. -/
theorem ignoresOthers_refused (e : Refusal) : IgnoresOthers fun _ => .refused e :=
  fun _ _ => rfl

/-- So does a choice between two such operations by a test on the rest of the block. -/
theorem ignoresOthers_ite {test : State → Prop} [DecidablePred test] {f g : State → Answer}
    (htest : ∀ others s, test (s.withOthers others) ↔ test s) (hf : IgnoresOthers f) (hg : IgnoresOthers g) :
    IgnoresOthers fun s => if test s then f s else g s := by
  intro others s
  simp only [htest]
  split
  · exact hf others s
  · exact hg others s

/-- A command ignores the others if its body does: the fault that makes it ignored is the acting one's own (R227). -/
theorem command_ignoresOthers {body : State → Answer} (h : IgnoresOthers body) : IgnoresOthers (command body) := by
  intro others s
  by_cases herr : s.inst.err = .none
  · rw [command_runs _ s herr, command_runs _ (s.withOthers others) herr]
    exact h others s
  · rw [command_ignored _ s herr, command_ignored _ (s.withOthers others) herr]
    rfl

theorem beginRun_withOthers (others : List Inst) (s : State) (v : Variant) (slice : List Byte) :
    (s.withOthers others).beginRun v slice = (s.beginRun v slice).withOthers others := by
  cases v <;> rfl

theorem prologue_ignoresOthers (v : Variant) : IgnoresOthers (prologue v) := by
  refine ignoresOthers_ite (fun _ _ => Iff.rfl) (ignoresOthers_next fun _ _ => rfl) ?_
  refine ignoresOthers_ite (fun _ _ => Iff.rfl) (ignoresOthers_next fun _ _ => rfl) fun others s => ?_
  cases hslice : snapshot s.inst with
  | none => simp [hslice, mapNext]
  | some slice => simp [hslice, mapNext, beginRun_withOthers]

theorem exec_cmd_ignoresOthers {i : Instr} (h : i.format = .cmd) : IgnoresOthers (exec i) := by
  obtain rfl | rfl | ⟨v, rfl⟩ | ⟨-, -, hreserved⟩ := cmd_kinds h
  · exact command_ignoresOthers (ignoresOthers_next fun _ _ => rfl)
  · exact command_ignoresOthers (ignoresOthers_ite (fun _ _ => Iff.rfl) (ignoresOthers_next fun _ _ => rfl)
      (ignoresOthers_next fun _ _ => rfl))
  · rw [show exec (validateInstr v) = command (prologue v) from funext (exec_validateInstr v)]
    exact command_ignoresOthers (prologue_ignoresOthers v)
  · rw [show exec i = reservedWord from funext hreserved]
    exact command_ignoresOthers (ignoresOthers_next fun _ _ => rfl)

theorem carryS_withOthers (others : List Inst) (s : State) (entry : Option Code) :
    carryS (s.withOthers others) entry = mapNext (State.withOthers others) (carryS s entry) := by
  cases entry <;> rfl

theorem carryOff_withOthers (others : List Inst) (s : State) (row : Option Row) :
    carryOff (s.withOthers others) row = mapNext (State.withOthers others) (carryOff s row) := by
  cases row <;> rfl

/-- Whatever the variant, a byte word reads the shared tables and the acting one's registers. -/
theorem byteStep_ignoresOthers (b : Byte) : IgnoresOthers (byteStep b) := by
  intro others s
  cases hrun : s.inst.run with
  | none => simp [byteStep, hrun, mapNext]
  | some r =>
    cases hv : r.variant with
    | ds | db | p4 => simp [byteStep, hrun, hv, carryS_withOthers]
    | p6 | p6u => simp [byteStep, hrun, hv, carryOff_withOthers]

/-- Every move of the acting host but a RESET, which reads and writes the others too, ignores them. -/
theorem hostMove_ignoresOthers {m : HostMove} (hm : m ≠ .reset) : IgnoresOthers fun s => perform (hostMove m s) := by
  cases m with
  | reset => exact absurd rfl hm
  | writeCmd w =>
    obtain ⟨i, hi, hw⟩ := Laws.decodeCmd_total w
    simp only [hostMove, perform_ofDecoded hi]
    exact exec_cmd_ignoresOthers (by rw [← encode_format, hw]; rfl)
  | writeInit c => exact ignoresOthers_next fun _ _ => rfl
  | writeLen n => exact ignoresOthers_ite (fun _ _ => Iff.rfl) (ignoresOthers_next fun _ _ => rfl) (ignoresOthers_refused _)
  | writeStatus v => exact ignoresOthers_refused _
  | writeResult v => exact ignoresOthers_refused _
  | supply bytes => exact ignoresOthers_next fun _ _ => rfl
  | putByte k b => exact ignoresOthers_next fun _ _ => rfl
  | carryResult => exact ignoresOthers_ite (fun _ _ => Iff.rfl) (ignoresOthers_next fun _ _ => rfl) (ignoresOthers_refused _)
  | read r =>
    cases r with
    | cmd => exact ignoresOthers_refused _
    | init => exact ignoresOthers_next fun _ _ => rfl
    | len => exact ignoresOthers_next fun _ _ => rfl
    | status => exact ignoresOthers_next fun _ _ => rfl
    | result => exact ignoresOthers_ite (fun _ _ => Iff.rfl) (ignoresOthers_next fun _ _ => rfl) (ignoresOthers_refused _)

/-- Whatever is done in a turn commutes with the exchange, but for a RESET that the host asserts between commands. -/
theorem perform_fetch_withOthers {s : State} (others : List Inst)
    (h : ¬ (s.inst.run = none ∧ s.inst.moves.head? = some .reset)) :
    perform (fetch (s.withOthers others)) = mapNext (State.withOthers others) (perform (fetch s)) := by
  cases hrun : s.inst.run with
  | some r =>
    have hrun' : (s.withOthers others).inst.run = some r := hrun
    by_cases hleft : s.inst.idx < r.slice.length
    · have hb := List.getElem?_eq_getElem hleft
      rw [perform_fetch_byte hrun hb, perform_fetch_byte hrun' hb]
      exact byteStep_ignoresOthers _ others s
    · rw [perform_fetch_end hrun (Nat.le_of_not_lt hleft), perform_fetch_end hrun' (Nat.le_of_not_lt hleft)]
      rfl
  | none =>
    have hrun' : (s.withOthers others).inst.run = none := hrun
    cases hmoves : s.inst.moves with
    | nil =>
      rw [perform_fetch_idle hrun hmoves, perform_fetch_idle hrun' hmoves]
      rfl
    | cons m ms =>
      have hm : m ≠ .reset := by
        rintro rfl
        exact h ⟨hrun, by rw [hmoves]; rfl⟩
      rw [perform_fetch_move hrun hmoves, perform_fetch_move hrun' hmoves]
      exact hostMove_ignoresOthers hm others (s.setMoves ms)

end Sys2Proof.Machine
end

section
/-! SUPPORT. How the final state of a run gets into `RESULT` and is read from `STATUS` (R28, R203, R204), and the refusal of a
RESET (R250). -/

namespace Sys2Proof.Machine

/-- The pre-multiplied variants take the final code from `OFF`, the others from `S`. -/
theorem finalCode_eq (v : Variant) (i : Inst) :
    finalCode v i = if v = .p6 ∨ v = .p6u then ((i.off &&& 63) / 6).setWidth 4 else i.s := by
  cases v <;> rfl

/-- The `STATUS` word is a function of the three stored fields and of `RESULT` (R28). -/
theorem statusWord_congr {s t : State} (hready : s.tblReady = t.tblReady) (hdone : s.inst.done = t.inst.done)
    (herr : s.inst.err = t.inst.err) (hresult : s.inst.result = t.inst.result) : statusWord s = statusWord t := by
  simp only [statusWord, Inst.valid, Inst.failed, hready, hdone, herr, hresult]

theorem verdict_eq_valid_iff {X : DState} : verdict X = .valid ↔ X = .ok := by
  cases X <;> simp [verdict]

theorem verdict_eq_invalid_iff {X : DState} : verdict X = .invalid ↔ X = .fail := by
  cases X <;> simp [verdict]

/-- The verdicts of R204 against the bytes owed of R211, state by state. -/
theorem verdict_eq_incomplete_iff {X : DState} : verdict X = .incomplete ↔ 0 < bytesOwed X := by
  cases X <;> simp [verdict, bytesOwed]

theorem code_inj {X Y : DState} : code X = code Y ↔ X = Y :=
  ⟨code_injective X Y, congrArg code⟩

theorem Inst.valid_iff_ok {i : Inst} {X : DState} (hdone : i.done = true) (hX : i.result = code X) :
    i.valid = true ↔ X = .ok := by
  rw [Inst.valid_iff, hX, code_inj, and_iff_right hdone]

theorem Inst.failed_iff_fail {i : Inst} {X : DState} (hdone : i.done = true) (hX : i.result = code X) :
    i.failed = true ↔ X = .fail := by
  rw [Inst.failed_iff, hX, code_inj, and_iff_right hdone]

theorem doReset_of_otherRun {s : State} {i : Inst} {r : Run} (hi : i ∈ s.parked) (hrun : i.run = some r) :
    doReset s = .refused .resetDuringCommand := by
  have hother : s.otherRuns = true := List.any_eq_true.mpr ⟨i, hi, by rw [hrun]; rfl⟩
  simp [doReset, hother]

end Sys2Proof.Machine
end

section
/-! SUPPORT. The statements about the host's side of the block: what its commands and moves reach, how it reads the outcome, and
what the instances have to do with each other. -/

namespace Sys2Proof.Machine

open Sys2Proof.Safety

/-- Settles O42: each of the two runs ends in its own `afterRun`, and these differ in the carried register at most. -/
theorem variantsAgree : Obligations.VariantsAgree := by
  unfold Obligations.VariantsAgree
  intro s X bytes v w h hturns
  refine ⟨_, _, _, _, exec_validateInstr_begins h, stepN_beginRun h.built hturns h.init, exec_validateInstr_begins h,
    stepN_beginRun h.built hturns h.init, afterRun_result, ?_, afterRun_done, ?_⟩
  · rw [afterRun_result, afterRun_result]
  · exact statusWord_congr (by simp) (by simp) (by simp) (by simp)

/-- Settles O43: the second run begins in the state whose code the first one left in `RESULT`, and `delta*` composes. -/
theorem chunkedRunsEqualOneRun : Obligations.ChunkedRunsEqualOneRun := by
  unfold Obligations.ChunkedRunsEqualOneRun
  intro s X u w v v' rest hidle hfits hfits' hmoves
  rw [List.append_assoc] at hmoves
  obtain ⟨s', hfirst, hmid⟩ := runEnded_of_validateMoves hidle hfits hmoves
  obtain ⟨t, hsecond, hend⟩ := runEnded_of_carryMoves hmid.idle hmid.done hmid.result (hmid.params ▸ hfits') hmid.moves
  have hsteps : u.length + w.length + 10 = 4 + (u.length + 1) + (4 + (w.length + 1)) := by omega
  rw [hsteps, stepN_add _ _ hfirst, deltaStar_append]
  exact ⟨t, hsecond, hend.result, hend.done, hend.init, hend.idle.noFault, hend.idle.noRun, hend.moves⟩

/-- Settles O57: whatever the acting one does, but for a RESET, writes none of the others. -/
theorem stepWritesOnlyActingInstance : Obligations.StepWritesOnlyActingInstance := by
  unfold Obligations.StepWritesOnlyActingInstance
  intro s u t hturn hstep
  rw [step_of_takeTurn hturn] at hstep
  exact perform_fetch_keeps_others hstep

/-- Settles O58: what is done commutes with the exchange of the others, and a RESET, which does not, goes through beside idle
ones with the same effect on all else. -/
theorem actingInstanceLearnsNothingOfOthers : Obligations.ActingInstanceLearnsNothingOfOthers := by
  unfold Obligations.ActingInstanceLearnsNothingOfOthers
  intro s others t hturns hothers hstep
  have hturns' : (s.withOthers others).turns = [] := hturns
  by_cases hreset : s.inst.run = none ∧ s.inst.moves.head? = some .reset
  · obtain ⟨hrun, hhead⟩ := hreset
    obtain ⟨ms, hmoves⟩ := List.head?_eq_some_iff.mp hhead
    rw [eq_resetAll_of_step_reset hturns hrun hmoves hstep]
    exact ⟨_, step_reset hturns' hrun hmoves (hothers hrun hhead), rfl, rfl, rfl, rfl, rfl⟩
  · rw [step_of_takeTurn (takeTurn_nil hturns)] at hstep
    have hcommute := perform_fetch_withOthers others hreset
    rw [hstep, ← step_of_takeTurn (takeTurn_nil hturns')] at hcommute
    exact ⟨_, hcommute, rfl, rfl, rfl, rfl, rfl⟩

/-- Settles O60: RESET and BUILD leave the block idle with built tables, and the VALIDATE then runs to its end. -/
theorem bootOrderReachesResult : Obligations.BootOrderReachesResult := by
  unfold Obligations.BootOrderReachesResult
  intro s X bytes v rest hturns hrun hothers hfits hmoves
  rw [List.append_assoc] at hmoves
  obtain ⟨s', hboot, hidle, hparams, hleft⟩ := stepN_boot hturns hrun hothers hmoves
  obtain ⟨t, hvalidate, hend⟩ := runEnded_of_validateMoves hidle (hparams ▸ hfits) hleft
  have hsteps : bytes.length + 7 = 2 + (4 + (bytes.length + 1)) := by omega
  rw [hsteps, stepN_add _ _ hboot]
  exact ⟨t, hvalidate, hend.result, hend.done, hend.idle.noFault, hend.idle.ready, hend.initSet, hend.lenSet, hend.moves⟩

/-- Settles O6: no byte is left, so the step is the epilogue, which decodes the register that the variant carries. -/
theorem stepAtEndOfSliceIsEpilogue : Obligations.StepAtEndOfSliceIsEpilogue := by
  unfold Obligations.StepAtEndOfSliceIsEpilogue
  intro s t r hturn hrun hend
  rw [step_of_takeTurn hturn, perform_fetch_end hrun hend.ge, State.finishRun, finalCode_eq]

/-- Settles O31: the word is that of NOP, which does nothing, ignored or not. -/
theorem nopChangesNothing : Obligations.NopChangesNothing :=
  ⟨Laws.decode_encode (i := .nop) rfl, exec_nop⟩

/-- Settles O46: each verdict is one of the ways in which `X` can be `Ok`, `Fail` or neither. -/
theorem finishedRunHasOneOfThreeOutcomes : Obligations.FinishedRunHasOneOfThreeOutcomes := by
  unfold Obligations.FinishedRunHasOneOfThreeOutcomes
  intro s X hdone hX
  simp only [← Bool.not_eq_true, Inst.valid_iff_ok hdone hX, Inst.failed_iff_fail hdone hX]
  refine ⟨?_, ?_, ?_, verdict_eq_incomplete_iff⟩
  · rw [verdict_eq_valid_iff]
    simp +contextual
  · rw [verdict_eq_invalid_iff]
    simp +contextual
  · rw [verdict_eq_incomplete_iff, Nat.pos_iff_ne_zero, Ne, bytesOwed_eq_zero_iff, not_or]

/-- Settles O52: the run of another one makes the test of RESET fail. -/
theorem resetInsideAnotherCommandIsRefused : Obligations.ResetInsideAnotherCommandIsRefused := by
  unfold Obligations.ResetInsideAnotherCommandIsRefused
  intro s t ms i r hturn hrun hmoves hi hother
  rw [step_hostMove hturn hrun hmoves]
  exact doReset_of_otherRun (s := t.setMoves ms) hi hother

end Sys2Proof.Machine
end

section
/-! SUPPORT. What a turn does, and what the recorded fault does to a command and a step to the recorded fault (R220 to R227,
R233). -/

namespace Sys2Proof.Machine

open Sys2Proof.Safety

/-! ### The turn (R233) -/

section
variable {s t : State} {k : Nat} {ks : List Nat}

theorem takeInst_eq_none {l : List Inst} (h : ∀ j ∈ l, j.id ≠ k) : takeInst k l = none := by
  induction l with
  | nil => rfl
  | cons j l ih =>
    obtain ⟨hj, hl⟩ := List.forall_mem_cons.mp h
    rw [takeInst, if_neg hj, ih hl]
    rfl

theorem focus_eq_none (h : ∀ j ∈ s.inst :: s.parked, j.id ≠ k) : s.focus k = none := by
  obtain ⟨hacting, hparked⟩ := List.forall_mem_cons.mp h
  rw [State.focus, if_neg hacting, takeInst_eq_none hparked]
  rfl

/-- Taking a turn that is left is to use it up and to choose the one it names. -/
theorem takeTurn_cons_eq_ok_iff (hturns : s.turns = k :: ks) :
    s.takeTurn = .ok t ↔ ({ s with turns := ks } : State).focus k = some t := by
  cases hfocus : ({ s with turns := ks } : State).focus k with
  | none => simp [State.takeTurn, hturns, hfocus]
  | some u => simp [State.takeTurn, hturns, hfocus]

/-- A turn for a number that no instance has (log entry 4). -/
theorem step_noSuchInstance (hturns : s.turns = k :: ks) (h : ∀ j ∈ s.inst :: s.parked, j.id ≠ k) :
    step s = .refused (.noSuchInstance k) := by
  have hfocus : ({ s with turns := ks } : State).focus k = none := focus_eq_none h
  simp [step, State.takeTurn, hturns, hfocus]

end

/-! ### Reserved words (R90, R224, R226) -/

theorem format_of_decodeCmd {w : CmdWord} {i : Instr} (h : decodeCmd w = some i) : i.format = .cmd := by
  rw [← encode_format, Laws.encode_of_decodeCmd h]
  rfl

theorem reservedWord_raises {s : State} (herr : s.inst.err = .none) :
    reservedWord s = .next (s.raise .illegalCommand) := by
  rw [reservedWord_eq, if_pos herr]

/-- Any word but the seven of R83 decodes to an instruction that executes as a reserved word. -/
theorem exec_of_decodeCmd_reserved {w : CmdWord} {i : Instr} (hi : decodeCmd w = some i)
    (hw : w ∉ ([0x00, 0x08, 0x10, 0x11, 0x12, 0x13, 0x14] : List CmdWord)) (s : State) : exec i s = reservedWord s := by
  have hword : encode i = .cmd w := Laws.encode_of_decodeCmd hi
  obtain rfl | rfl | ⟨v, rfl⟩ | ⟨-, -, hexec⟩ := cmd_kinds (format_of_decodeCmd hi)
  · cases hword
    exact absurd (by decide) hw
  · cases hword
    exact absurd (by decide) hw
  · rw [Laws.encode_of_decodeCmd (decodeCmd_cmdWord v)] at hword
    cases hword
    exact absurd (by cases v <;> decide) hw
  · exact hexec s

/-! ### The recorded fault (R226, R227) -/

section
variable {s t : State}

/-- Each of the four kinds of command is ignored while a fault is recorded. -/
theorem exec_cmd_ignored {i : Instr} (hformat : i.format = .cmd) (herr : s.inst.err ≠ .none) : exec i s = .next s := by
  obtain rfl | rfl | ⟨v, rfl⟩ | ⟨-, -, hreserved⟩ := cmd_kinds hformat
  · exact exec_nop s
  · simp [exec_build, herr]
  · rw [exec_validateInstr, command_ignored _ _ herr]
  · rw [hreserved, reservedWord_eq, if_neg herr]

theorem exec_validateInstr_notReady (v : Variant) (herr : s.inst.err = .none) (hready : s.tblReady = false) :
    exec (validateInstr v) s = .next (s.raise .tablesNotBuilt) := by
  rw [exec_validateInstr, command_runs _ _ herr, prologue_notReady hready]

theorem exec_validateInstr_illegalInit (v : Variant) (herr : s.inst.err = .none) (hready : s.tblReady = true)
    (hinit : 8 < s.inst.init.toNat) : exec (validateInstr v) s = .next (s.raise .illegalInitialState) := by
  rw [exec_validateInstr, command_runs _ _ herr, prologue_illegalInit hready hinit]

/-- A command is ignored, and a RESET clears the fault; no other move writes it. -/
theorem hostMove_keeps_fault {m : HostMove} (herr : s.inst.err ≠ .none) (hmove : perform (hostMove m s) = .next t) :
    t.inst.err = s.inst.err ∨ (m = .reset ∧ t.inst.err = .none) := by
  obtain ⟨w, i, -, hi, hexec⟩ | ⟨hm, -, rfl⟩ | ⟨c, -, rfl⟩ | ⟨n, -, -, rfl⟩ | ⟨bytes, -, rfl⟩ | ⟨k, b, -, rfl⟩ |
    ⟨r, q, v, -, rfl⟩ | ⟨-, -, rfl⟩ := hostMove_cases hmove
  · rw [exec_cmd_ignored (format_of_decodeCmd hi) herr] at hexec
    cases hexec
    exact .inl rfl
  · exact .inr ⟨hm, s.resetAll_err⟩
  all_goals exact .inl rfl

/-- Whatever is done in a turn keeps the fault, but for a RESET that the host asserts between commands. -/
theorem perform_fetch_keeps_fault (herr : s.inst.err ≠ .none) (hnext : perform (fetch s) = .next t) :
    t.inst.err = s.inst.err ∨ (s.inst.run = none ∧ s.inst.moves.head? = some .reset ∧ t.inst.err = .none) := by
  obtain ⟨r, b, -, -, hbyte⟩ | ⟨r, -, -, rfl⟩ | ⟨-, -, rfl⟩ | ⟨m, ms, hrun, hmoves, hmove⟩ := perform_fetch_cases hnext
  · obtain ⟨-, -, ⟨-, n, rfl⟩ | ⟨-, o, rfl⟩⟩ := byteStep_cases hbyte
    all_goals exact .inl rfl
  · exact .inl rfl
  · exact .inl rfl
  · obtain hkeeps | ⟨rfl, hclear⟩ := hostMove_keeps_fault (s := s.setMoves ms) herr hmove
    · exact .inl hkeeps
    · exact .inr ⟨hrun, by rw [hmoves]; rfl, hclear⟩

end

end Sys2Proof.Machine
end

section
/-! SUPPORT. The statements about turns, idle steps and the recorded fault. -/

namespace Sys2Proof.Machine

/-- Settles O8: a turn that is taken is a choice among the instances, and a number that none has leaves none to choose. -/
theorem turnOnlyChoosesActingInstance : Obligations.TurnOnlyChoosesActingInstance := by
  unfold Obligations.TurnOnlyChoosesActingInstance
  refine ⟨fun s t k ks hturns hturn => ?_, fun s k ks => step_noSuchInstance⟩
  obtain ⟨hid, hperm, hparams, htables, hready, hleft⟩ := focus_spec ((takeTurn_cons_eq_ok_iff hturns).mp hturn)
  exact ⟨hid, hleft, hparams, htables, hready, hperm.symm⟩

/-- Settles O32: the nine constructors and the 25 words all execute as the reserved word, which raises the fault. -/
theorem reservedWordRaisesIllegalCommand : Obligations.ReservedWordRaisesIllegalCommand := by
  unfold Obligations.ReservedWordRaisesIllegalCommand
  refine ⟨rfl, fun i s herr hi => ?_, fun w s hw herr => ?_⟩
  · obtain rfl | ⟨w, rfl⟩ | ⟨w, rfl⟩ | rfl | ⟨w, rfl⟩ | ⟨w, rfl⟩ | rfl | ⟨w, rfl⟩ | ⟨w, rfl⟩ := hi
    all_goals exact reservedWord_raises herr
  · obtain ⟨i, hi, -⟩ := Laws.decodeCmd_total w
    exact ⟨i, hi, (exec_of_decodeCmd_reserved hi hw s).trans (reservedWord_raises herr)⟩

/-- Settles O33: a command is ignored, and of all that a turn can do only RESET writes the fault of the acting one. -/
theorem onlyResetClearsFault : Obligations.OnlyResetClearsFault := by
  unfold Obligations.OnlyResetClearsFault
  refine ⟨fun i s => exec_cmd_ignored, fun s u t hturn herr hstep => ?_⟩
  rw [step_of_takeTurn hturn] at hstep
  exact perform_fetch_keeps_fault herr hstep

/-- Settles O34: the decoder's fault needs no test of the state, and the two of the prologue come in its order. -/
theorem firstFaultOfTheOrderIsRecorded : Obligations.FirstFaultOfTheOrderIsRecorded := by
  unfold Obligations.FirstFaultOfTheOrderIsRecorded
  refine ⟨rfl, rfl, rfl, fun s => ⟨fun herr w i hi hw => ?_, fun herr hready v => ?_, fun herr hready hinit v => ?_,
    fun herr w i hi => ?_⟩⟩
  · exact ⟨_, (exec_of_decodeCmd_reserved hi hw s).trans (reservedWord_raises herr), rfl⟩
  · exact ⟨_, exec_validateInstr_notReady v herr hready, rfl⟩
  · exact ⟨_, exec_validateInstr_illegalInit v herr hready hinit, rfl⟩
  · exact ⟨s, exec_cmd_ignored (format_of_decodeCmd hi) herr, rfl⟩

/-- Settles O7: the one that acts finds neither a run nor a move, and answers its own state. -/
theorem idleStepHoldsState : Obligations.IdleStepHoldsState := by
  unfold Obligations.IdleStepHoldsState
  intro s t hturn hrun hmoves
  rw [step_of_takeTurn hturn, perform_fetch_idle hrun hmoves]

end Sys2Proof.Machine
end
